-- ==== Sys2Proof/Word.lean ====
section
/-! DEFINITION. The plain types every other file uses: what the manual numbers, and what it treats as bits.
Counts, amounts, slots, indices and times are numbers (`Nat`); codes, tags and lifetime counters, which the manual
splits, masks or takes modulo a power of two, are bit vectors. -/

namespace Sys2Proof

/-- One byte of a link port's line. -/
abbrev Byte := BitVec 8

/-- A link port, LP0 to LP5. -/
abbrev PortId := Fin 6

/-- A sweep unit, S0 or S1. -/
abbrev UnitId := Fin 2

/-- A series entry; its number is its priority (1.2). -/
abbrev EntryId := Fin 16

/-- A trial card, 0 to 3 (R140). -/
abbrev TrialId := Fin 4

/-- A position of the card engine's ring (R29). -/
abbrev Position := Fin 9

/-- A 48-bit card code: series field in bits 47..20, serial field in bits 19..0 (1.1). -/
abbrev CardCode := BitVec 48

/-- A hold tag: generation in bits 15..12, index in bits 11..0 (R40). -/
abbrev HoldTag := BitVec 16

/-- A till id; the part compares and stores it and never computes with it (Conventions). -/
abbrev TillId := BitVec 16

/-- A 64-bit counter, day figure, sum or drift; arithmetic is modulo 2^64 (Conventions, R113, R123). -/
abbrev Word64 := BitVec 64

end Sys2Proof
end

