-- ==== Sys2Proof/Config.lean ====
section
/-! DEFINITION. What the manual fixes for the part as numbers, and the values it leaves open (free values: constants
with no body). -/

namespace Sys2Proof

/-- The per-series rules a request reads from the governing entry (R6), or the fixed limits of a trial card (R140). -/
structure CardRules where
  ceiling : Nat
  shortLifetime : Nat
  longLifetime : Nat
  useLimit : Nat
  partialAllowed : Bool
  renewLimit : Nat
  deriving DecidableEq, Repr, Inhabited

namespace Config

/-- Highest amount (Conventions). -/
def maxAmount : Nat := 9999999

/-- Top of device time, where it saturates (R86). -/
def maxTime : Nat := 4294967295

/-- Highest day number (R129). -/
def maxDay : Nat := 65535

/-- Number of card records (R16, R157). -/
def slots : Nat := 131072

/-- Number of hold records (R37). -/
def holdRecords : Nat := 4096

/-- Holds a chain may hold (R42). -/
def chainLimit : Nat := 8

/-- Places of a port's request queue (R154). -/
def requestPlaces : Nat := 4

/-- Places of a port's answer queue (R154). -/
def answerPlaces : Nat := 8

/-- Places of a port's notice queue (R171). -/
def noticePlaces : Nat := 16

/-- Records of the closed-day list (R129). -/
def closedDayPlaces : Nat := 8

/-- Bytes of the longest body, tag and outcome included (11.1). -/
def longestBody : Nat := 60

/-- Good IDLE frames in a row that bring a port back from OFF (R167). -/
def idleRunGoal : Nat := 64

/-- Ceiling of a trial card and of a trial base value (R140). -/
def trialCeiling : Nat := 99999

/-- The start byte of every frame (11.1). -/
def startByte : Byte := 0xC5

/-- The limits that stand in for a series entry on a trial card (R140). -/
def trialRules : CardRules where
  ceiling := trialCeiling
  shortLifetime := 120
  longLifetime := 120
  useLimit := 0
  partialAllowed := true
  renewLimit := 0

/-- FREE VALUE (log 10): whether a PORT-STATUS that names its own port reports the level WAIT had while the request
itself stood in the queue (true), or the level without it (false). R158 leaves the request out of the reported queue
and does not say which level it reports. -/
opaque portStatusOwnWait : Bool

/-- FREE VALUE (log 11): what the one frame of a TRIAL-IN-USE carries, given the 68 bytes of the four trial cards. R144
has the answer carry them, R177 sends it in one frame, and 11.1 ends a body at 60 bytes; no layout is given for it. -/
opaque trialInUseFields : List Byte → List Byte

/-- FREE VALUE (log 13): the rules of a slot that no enabled entry governs. R5 says the case does not arise for an open
REAL hold, the one reader that could ask. -/
opaque ungovernedRules : Nat → CardRules

/-- FREE VALUE (log 13): the card code formed from a slot that no enabled entry governs; it does not arise (R5, R13). -/
opaque ungovernedCode : Nat → CardCode

end Config

end Sys2Proof
end

