-- ==== Sys2Proof/Syntax.lean ====
section
/-! DEFINITION. The commands of the FZ7140: one constructor for each row of spec/opcode_table.json.
A row that arrives from outside carries what the outside gives it (a port, a byte, strap levels, a gap's length). A row
that is a grant of the card engine, or a port-local answer, takes the request's fields from the request queue, where the
receiver put them (R31, R152). -/

namespace Sys2Proof

/-- The commands (spec/opcode_table.json). -/
inductive Instr where
  /-- POWER_ON, with the levels of RATE1 and RATE0 sampled at it (R34, R177). -/
  | powerOn (rate1 rate0 : Bool)
  /-- RESET_N_ASSERT (R35). -/
  | resetNAssert
  /-- RESET_N_RELEASE, with the levels of RATE1 and RATE0 sampled at it (R163, R177). -/
  | resetNRelease (rate1 rate0 : Bool)
  /-- TICK_SECOND: a rising edge of TICK (R87). -/
  | tickSecond
  /-- DIVIDER_SECOND: the REFCLK edges up to the one at which the divider reaches the divisor (R88). -/
  | dividerSecond
  /-- WINDOW_EXPIRY: the comparison of device time with the window deadline (R132). -/
  | windowExpiry
  /-- LAPSE: a grant of the expiry unit (R94). -/
  | lapse
  /-- SEARCH_STEP: a grant of a unit that runs a SEARCH (R110). -/
  | searchStep
  /-- TALLY_STEP: a grant of a unit that runs a TALLY (R112). -/
  | tallyStep
  /-- PURGE_STEP: a grant of a unit that runs a PURGE (R116). -/
  | purgeStep
  /-- ISSUE_RUN_STEP: a grant of a unit that runs an ISSUE-RUN (R120). -/
  | issueRunStep
  /-- GRANT_COMPLETION: the completion of the port grant in progress (R31). -/
  | grantCompletion
  /-- FRAME_RECEIVED: the byte that completes a frame at a port (R152). -/
  | frameReceived (p : PortId) (b : Byte)
  /-- IDLE: the byte that completes a good IDLE frame (R152). -/
  | idle (p : PortId) (b : Byte)
  /-- BAD_LENGTH: a length byte outside 2..60 (R151). -/
  | badLength (p : PortId) (b : Byte)
  /-- LINK_TIMEOUT: the gap under way at a port has come to `gap` units of 100 µs (R149, R151). -/
  | linkTimeout (p : PortId) (gap : Nat)
  /-- IDLE_RECOVERY: the byte that completes the 64th good IDLE frame in OFF (R167). -/
  | idleRecovery (p : PortId) (b : Byte)
  /-- ANSWER_TRANSMIT_START (R156). -/
  | answerTransmitStart (p : PortId)
  /-- ANSWER_SENT (R156). -/
  | answerSent (p : PortId)
  /-- PROBE: the grant of a PROBE (R66). -/
  | probe
  /-- RESERVE: the grant of a RESERVE (R50). -/
  | reserve
  /-- RENEW: the grant of a RENEW (R56). -/
  | renew
  /-- CAPTURE: the grant of a CAPTURE (R68). -/
  | capture
  /-- RELEASE: the grant of a RELEASE (R73). -/
  | release
  /-- REDEEM: the grant of a REDEEM (R75). -/
  | redeem
  /-- LOAD: the grant of a LOAD (R78). -/
  | load
  /-- COLLECT: answered by the port (R173). -/
  | collect (p : PortId)
  /-- STATUS: answered by the port (R158). -/
  | status (p : PortId)
  /-- PORT_STATUS: answered by the port (R158). -/
  | portStatus (p : PortId)
  /-- IDENT: answered by the port (R157). -/
  | ident (p : PortId)
  /-- SET_SERIES: the grant of a SET-SERIES (R8). -/
  | setSeries
  /-- READ_SERIES: the grant of a READ-SERIES (R12). -/
  | readSeries
  /-- ISSUE: the grant of an ISSUE (R22). -/
  | issue
  /-- BLOCK: the grant of a BLOCK (R23). -/
  | block
  /-- UNBLOCK: the grant of an UNBLOCK (R23). -/
  | unblock
  /-- RETIRE: the grant of a RETIRE (R24). -/
  | retire
  /-- EDIT_CARD: the grant of an EDIT-CARD (R25). -/
  | editCard
  /-- READ_CARD: the grant of a READ-CARD (R26). -/
  | readCard
  /-- READ_HOLD: the grant of a READ-HOLD (R59). -/
  | readHold
  /-- SET_TIME: the grant of a SET-TIME (R90). -/
  | setTime
  /-- SEARCH: the grant of a SEARCH start (R103, R108). -/
  | search
  /-- TALLY: the grant of a TALLY start (R103, R112). -/
  | tally
  /-- PURGE: the grant of a PURGE start (R103, R116). -/
  | purge
  /-- ISSUE_RUN: the grant of an ISSUE-RUN start (R103, R119). -/
  | issueRun
  /-- CANCEL_SWEEP: the grant of a CANCEL-SWEEP (R106). -/
  | cancelSweep
  /-- CLOSE_DAY: the grant of a CLOSE-DAY (R127). -/
  | closeDay
  /-- CONFIRM_CLOSE: the grant of a CONFIRM-CLOSE (R128). -/
  | confirmClose
  /-- DAY_REPORT: the grant of a DAY-REPORT (R135). -/
  | dayReport
  /-- ACCOUNTS: the grant of an ACCOUNTS (R136). -/
  | accounts
  /-- TRIAL_SET: the grant of a TRIAL-SET (R144). -/
  | trialSet
  /-- SET_PORT: the grant of a SET-PORT (R159). -/
  | setPort
  /-- SET_TIMING: the grant of a SET-TIMING (R160). -/
  | setTiming
  /-- RESET_PORT: the grant of a RESET-PORT (R161). -/
  | resetPort
  /-- RESTORE_PORT: the grant of a RESTORE-PORT (R168). -/
  | restorePort
  /-- BYTE_RECEIVED: a byte arriving at a port's receiver (R149). -/
  | byteReceived (p : PortId) (b : Byte)
  deriving DecidableEq, Repr

end Sys2Proof
end

