-- ==== Sys2Proof/WellFormed.lean ====
section
/-! DEFINITION. Which commands are well formed: the operand of a row is one the row's own words allow. Ports are in range
by their type. -/

namespace Sys2Proof

/-- A BAD_LENGTH carries a length byte outside 2..60 (R151); a LINK_TIMEOUT carries a gap of at least one unit, since no
setting makes a gap of nothing a time-out (R149). Every other command is well formed. -/
def Instr.wf : Instr → Bool
  | .badLength _ b => b.toNat < 2 || 60 < b.toNat
  | .linkTimeout _ gap => 0 < gap
  | .powerOn _ _ | .resetNAssert | .resetNRelease _ _ | .tickSecond | .dividerSecond | .windowExpiry | .lapse
  | .searchStep | .tallyStep | .purgeStep | .issueRunStep | .grantCompletion | .frameReceived _ _ | .idle _ _
  | .idleRecovery _ _ | .answerTransmitStart _ | .answerSent _ | .probe | .reserve | .renew | .capture | .release
  | .redeem | .load | .collect _ | .status _ | .portStatus _ | .ident _ | .setSeries | .readSeries | .issue | .block
  | .unblock | .retire | .editCard | .readCard | .readHold | .setTime | .search | .tally | .purge | .issueRun
  | .cancelSweep | .closeDay | .confirmClose | .dayReport | .accounts | .trialSet | .setPort | .setTiming | .resetPort
  | .restorePort | .byteReceived _ _ => true

end Sys2Proof
end

