-- ==== Sys2Proof/Decode.lean ====
section
/-! DEFINITION. The command a word of spec/opcode_table.json spells. The table gives no row a word or any bits (its rows
are steps of the part, not encodings), so no word spells a command (log 21). The request frames of chapter 11 are bytes on
a line and are taken apart in Machine/Operands.lean. -/

namespace Sys2Proof

/-- No row of the table has bits, so no word spells a command. -/
def decodeTableWord (_nbits _w : Nat) : Option Instr :=
  none

end Sys2Proof
end

