-- ==== Sys2Proof/Machine/Types.lean ====
section
/-! DEFINITION. The data the FZ7140 keeps, carries and answers with: records, requests, answers and notices. -/

namespace Sys2Proof.Machine

/-! ### Cards and holds -/

/-- State of a card record (R20). -/
inductive CardState where
  | blank | active | blocked | retired
  deriving DecidableEq, Repr, Inhabited

/-- Kind of a last-activity record (R19). -/
inductive ActivityKind where
  | reserve | capture | release | redeem | load | expiry
  deriving DecidableEq, Repr, Inhabited

/-- A last-activity record (R19). -/
structure Activity where
  port : PortId
  till : TillId
  time : Nat
  kind : ActivityKind
  deriving DecidableEq, Repr, Inhabited

/-- A card record, or a trial card, which has the same fields (R16, R140). -/
structure Card where
  state : CardState
  value : Nat
  held : Nat
  chain : List Nat
  useDay : Nat
  uses : Nat
  last : Option Activity
  deriving DecidableEq, Repr, Inhabited

/-- A card record at power-on (R34). -/
def Card.blank : Card where
  state := .blank
  value := 0
  held := 0
  chain := []
  useDay := 0
  uses := 0
  last := none

/-- A trial card at power-on (R148). -/
def Card.trialStart : Card where
  state := .active
  value := 10000
  held := 0
  chain := []
  useDay := 0
  uses := 0
  last := none

/-- The card a hold stands against: a slot of the card table (kind REAL) or a trial card (kind TRIAL) (R37). -/
inductive CardRef where
  | real (slot : Nat)
  | trial (card : TrialId)
  deriving DecidableEq, Repr, Inhabited

/-- Kind TRIAL of a hold, and the trial mark of an answer (R37, R141). -/
def CardRef.isTrial : CardRef → Bool
  | .real _ => false
  | .trial _ => true

/-- A hold record (R37). -/
structure Hold where
  isOpen : Bool
  generation : BitVec 4
  card : CardRef
  owner : PortId
  till : TillId
  amount : Nat
  created : Nat
  deadline : Nat
  long : Bool
  renewals : Nat
  deriving DecidableEq, Repr, Inhabited

/-- A hold record at power-on (R60). -/
def Hold.fresh : Hold where
  isOpen := false
  generation := 0
  card := .real 0
  owner := 0
  till := 0
  amount := 0
  created := 0
  deadline := 0
  long := false
  renewals := 0

/-! ### Series -/

/-- The eleven fields of a series entry that SET-SERIES writes (R2). -/
structure SeriesFields where
  enabled : Bool
  matchBits : BitVec 28
  mask : BitVec 28
  base : Nat
  count : Nat
  ceiling : Nat
  shortLifetime : Nat
  longLifetime : Nat
  useLimit : Nat
  partialAllowed : Bool
  renewLimit : Nat
  deriving DecidableEq, Repr, Inhabited

/-- A series entry: the written fields and the open-hold count (R2). -/
structure SeriesEntry where
  fields : SeriesFields
  openHolds : Nat
  deriving DecidableEq, Repr, Inhabited

/-- A series entry at power-on (R14). -/
def SeriesEntry.cleared : SeriesEntry where
  fields := ⟨false, 0, 0, 0, 0, 0, 0, 0, 0, false, 0⟩
  openHolds := 0

/-! ### Clock, line and ports -/

/-- Time base of the device clock (R87). -/
inductive TimeBase where
  | tick | divided
  deriving DecidableEq, Repr, Inhabited

/-- The device clock (R86 to R88). -/
structure Clock where
  time : Nat
  base : TimeBase
  divisor : Nat
  divider : Nat
  deriving DecidableEq, Repr, Inhabited

/-- Line rate common to the six ports (R177). -/
inductive LineRate where
  | b9600 | b19200 | b38400 | b115200
  deriving DecidableEq, Repr, Inhabited

/-- The line rate the straps RATE1 and RATE0 select (R177). -/
def LineRate.ofStraps : Bool → Bool → LineRate
  | false, false => .b9600
  | false, true => .b19200
  | true, false => .b38400
  | true, true => .b115200

/-- Role of a port (R153). -/
inductive Role where
  | till | office
  deriving DecidableEq, Repr, Inhabited

/-- Mode of a port (chapter 8). -/
inductive Mode where
  | normal | trial
  deriving DecidableEq, Repr, Inhabited

/-- Health state of a port (R165). -/
inductive Health where
  | active | warned | muted | off
  deriving DecidableEq, Repr, Inhabited

/-- What a time-out does beside discarding the frame (R151). -/
inductive Recovery where
  | drop | reset
  deriving DecidableEq, Repr, Inhabited

/-! ### Sweeps -/

/-- Kind of a sweep (R102). -/
inductive SweepKind where
  | search | tally | purge | issueRun
  deriving DecidableEq, Repr, Inhabited

/-- Card figure a SEARCH criterion compares (R108). -/
inductive CritField where
  | value | available | held | usesToday | lastTime
  deriving DecidableEq, Repr, Inhabited

/-- Relation of a SEARCH criterion (R108). -/
inductive Relation where
  | eq | le | ge
  deriving DecidableEq, Repr, Inhabited

/-- A SEARCH criterion (R108). -/
inductive Criterion where
  | any
  | figure (field : CritField) (relation : Relation) (operand : Nat)
  deriving DecidableEq, Repr, Inhabited

/-- Parameters of a sweep, by kind (R108, R112, R116, R119). A PURGE's till is absent for the selector ANY. -/
inductive SweepParams where
  | search (start stop : Nat) (critA critB : Criterion) (limit : Nat) (skipBlocked : Bool)
  | tally (start stop : Nat)
  | purge (owner : PortId) (till : Option TillId)
  | issueRun (start stop stride value : Nat)
  deriving DecidableEq, Repr, Inhabited

/-- The kind of a sweep, read from its parameters. -/
def SweepParams.kind : SweepParams → SweepKind
  | .search _ _ _ _ _ _ => .search
  | .tally _ _ => .tally
  | .purge _ _ => .purge
  | .issueRun _ _ _ _ => .issueRun

/-- Slot or index at which the cursor of a sweep starts (R103). -/
def SweepParams.firstCursor : SweepParams → Nat
  | .search start _ _ _ _ _ => start
  | .tally start _ => start
  | .purge _ _ => 0
  | .issueRun start _ _ _ => start

/-- Accumulators and flags of a sweep, all kinds together (R102, R110, R112, R116, R120). -/
structure SweepResults where
  examined : Nat
  blockedSeen : Bool
  valueSum : Word64
  heldSum : Word64
  cardCount : Nat
  freedCount : Nat
  freedAmount : Word64
  issuedCount : Nat
  skippedCount : Nat
  valueIssued : Nat
  deriving DecidableEq, Repr, Inhabited

/-- Results at a sweep's start, and at power-on (R103, R122). -/
def SweepResults.zero : SweepResults :=
  ⟨0, false, 0, 0, 0, 0, 0, 0, 0, 0⟩

/-- The three signed drift accumulators, modulo 2^64 (R102, R113). -/
structure Drift where
  value : Word64
  held : Word64
  count : Word64
  deriving DecidableEq, Repr, Inhabited

/-- Drift of nothing. -/
def Drift.zero : Drift :=
  ⟨0, 0, 0⟩

/-- Sum of two drifts (R113). -/
def Drift.add (a b : Drift) : Drift :=
  ⟨a.value + b.value, a.held + b.held, a.count + b.count⟩

/-- A sweep unit (R102). -/
structure Sweep where
  running : Bool
  params : SweepParams
  startPort : PortId
  cursor : Nat
  results : SweepResults
  drift : Drift
  deriving DecidableEq, Repr, Inhabited

/-- A sweep unit at power-on: IDLE with its recorded fields cleared (R122); the cleared kind is the one encoded 0
(log 18). -/
def Sweep.cleared : Sweep where
  running := false
  params := .search 0 0 .any .any 0 false
  startPort := 0
  cursor := 0
  results := .zero
  drift := .zero

/-- Ending reason of a sweep (R105). -/
inductive SweepReason where
  | hit | miss | limit | blockedEnd | done | cancelled
  deriving DecidableEq, Repr, Inhabited

/-- Results a SWEEP-DONE notice carries, by kind (R111, R114, R117, R120). -/
inductive SweepReport where
  | search (slot : Option Nat) (examined : Nat) (blockedSeen : Bool)
  | tally (valueSum heldSum : Word64) (cardCount : Nat) (drift : Drift) (time : Nat)
  | purge (freedCount : Nat) (freedAmount : Word64)
  | issueRun (issued skipped valueIssued : Nat)
  deriving DecidableEq, Repr, Inhabited

/-- The kind of sweep a report belongs to (R105). -/
def SweepReport.kind : SweepReport → SweepKind
  | .search _ _ _ => .search
  | .tally _ _ _ _ _ => .tally
  | .purge _ _ => .purge
  | .issueRun _ _ _ => .issueRun

/-! ### Accounts -/

/-- Six figures: the lifetime counters, or a day set (R123, R125). `adjusted` is signed (two's complement). -/
structure Figures where
  issued : Word64
  loaded : Word64
  captured : Word64
  writtenOff : Word64
  adjusted : Word64
  captureCount : Word64
  deriving DecidableEq, Repr, Inhabited

/-- All six figures zero (R138). -/
def Figures.zero : Figures :=
  ⟨0, 0, 0, 0, 0, 0⟩

/-- Figure by figure sum, modulo 2^64 (R130). -/
def Figures.add (a b : Figures) : Figures where
  issued := a.issued + b.issued
  loaded := a.loaded + b.loaded
  captured := a.captured + b.captured
  writtenOff := a.writtenOff + b.writtenOff
  adjusted := a.adjusted + b.adjusted
  captureCount := a.captureCount + b.captureCount

/-- A movement of value on a REAL card (R123). -/
inductive Movement where
  | issue (value : Nat)
  | load (applied : Nat)
  | capture (taken : Nat)
  | writeOff (value : Nat)
  | adjust (old new : Nat)
  deriving DecidableEq, Repr

/-- What a movement adds to the lifetime counters and to one day set (R123). -/
def Movement.figures : Movement → Figures
  | .issue v => { Figures.zero with issued := BitVec.ofNat 64 v }
  | .load v => { Figures.zero with loaded := BitVec.ofNat 64 v }
  | .capture v => { Figures.zero with captured := BitVec.ofNat 64 v, captureCount := 1 }
  | .writeOff v => { Figures.zero with writtenOff := BitVec.ofNat 64 v }
  | .adjust old new => { Figures.zero with adjusted := BitVec.ofNat 64 new - BitVec.ofNat 64 old }

/-- Close state: OPEN, or CLOSING with owner port, frozen set and window deadline (R126). -/
inductive CloseState where
  | opened
  | closing (owner : PortId) (frozen : Figures) (deadline : Nat)
  deriving DecidableEq, Repr, Inhabited

/-- The owner port of a pending close. -/
def CloseState.owner? : CloseState → Option PortId
  | .opened => none
  | .closing owner _ _ => some owner

/-- Cause of a drop that its notice names (R131, R134). -/
inductive DropCause where
  | strayRequest | window | portReset | portOff | roleChange
  deriving DecidableEq, Repr, Inhabited

/-- A record of the closed-day list (R129). -/
structure ClosedDay where
  day : Nat
  figures : Figures
  port : PortId
  time : Nat
  deriving DecidableEq, Repr, Inhabited

/-- The accounts block (chapter 7). The closed-day list stands oldest first. -/
structure Accounts where
  lifetime : Figures
  current : Figures
  next : Figures
  close : CloseState
  day : Nat
  closedDays : List ClosedDay
  window : Nat
  deriving DecidableEq, Repr, Inhabited

/-- The accounts block at power-on (R138). -/
def Accounts.start : Accounts where
  lifetime := .zero
  current := .zero
  next := .zero
  close := .opened
  day := 1
  closedDays := []
  window := 30

/-! ### Notices -/

/-- How a HOLD-EXPIRED notice names the card: by code (REAL) or by trial card number (R95). -/
inductive NoticeCard where
  | real (code : CardCode)
  | trial (card : TrialId)
  deriving DecidableEq, Repr, Inhabited

/-- Cause of a PORT-STATE notice (R170). -/
inductive HealthCause where
  | errors | goodFrames | idleRecovery | restore
  deriving DecidableEq, Repr, Inhabited

/-- A notice record (R174). -/
inductive Notice where
  | holdExpired (tag : HoldTag) (card : NoticeCard) (amount : Nat) (till : TillId)
  | holdsPurged (count : Nat) (amount : Word64)
  | sweepDone (unit : UnitId) (reason : SweepReason) (cursor : Nat) (report : SweepReport)
  | closeDropped (day : Nat) (cause : DropCause)
  | portState (port : PortId) (before after : Health) (count : Nat) (cause : HealthCause)
  deriving DecidableEq, Repr, Inhabited

/-- An entry of a notice queue: a notice and its overrun mark (R171). -/
structure NoticeEntry where
  notice : Notice
  overrun : Bool
  deriving DecidableEq, Repr, Inhabited

/-! ### Requests -/

/-- The request kinds a frame may name, IDLE included (11.3). -/
inductive Kind where
  | idle
  | probe | reserve | renew | capture | release | redeem | load
  | collect | status | portStatus | ident
  | setSeries | readSeries | issue | block | unblock | retire | editCard | readCard | readHold
  | setTime | search | tally | purge | issueRun | cancelSweep
  | closeDay | confirmClose | dayReport | accounts | trialSet
  | setPort | setTiming | resetPort | restorePort
  deriving DecidableEq, Repr, Inhabited

/-- Card address of an office card request: by code or by slot, as the addressing flag selects (R21). -/
inductive Address where
  | code (code : CardCode)
  | slot (slot : Nat)
  deriving DecidableEq, Repr, Inhabited

/-- A request with its fields (11.3). -/
inductive Request where
  | probe (code : CardCode)
  | reserve (code : CardCode) (till : TillId) (amount : Nat) (partialFlag longFlag : Bool)
  | renew (tag : HoldTag)
  | capture (tag : HoldTag) (final : Nat) (till : TillId)
  | release (tag : HoldTag)
  | redeem (code : CardCode) (till : TillId) (amount : Nat) (partialFlag : Bool)
  | load (code : CardCode) (till : TillId) (amount : Nat)
  | collect
  | status
  | portStatus (target : PortId)
  | ident
  | setSeries (entry : EntryId) (fields : SeriesFields)
  | readSeries (entry : EntryId)
  | issue (address : Address) (value : Nat)
  | block (address : Address)
  | unblock (address : Address)
  | retire (address : Address)
  | editCard (address : Address) (editValue editUses : Bool) (newValue newUses : Nat)
  | readCard (address : Address)
  | readHold (index : Nat)
  | setTime (time : Nat)
  | search (start stop : Nat) (critA critB : Criterion) (limit : Nat) (skipBlocked : Bool)
  | tally (start stop : Nat)
  | purge (owner : PortId) (till : Option TillId)
  | issueRun (start stop stride value : Nat)
  | cancelSweep (unit : UnitId)
  | closeDay
  | confirmClose
  | dayReport (day : Nat)
  | accounts
  | trialSet (write : Bool) (values : Vector Nat 4)
  | setPort (target : PortId) (role : Role) (mode : Mode)
  | setTiming (target : PortId) (timeout : Nat) (recovery : Recovery) (window : Nat) (base : TimeBase) (divisor : Nat)
  | resetPort (target : PortId)
  | restorePort (target : PortId)
  deriving DecidableEq, Repr

/-- The kind of a request (11.3). -/
def Request.kind : Request → Kind
  | .probe _ => .probe
  | .reserve _ _ _ _ _ => .reserve
  | .renew _ => .renew
  | .capture _ _ _ => .capture
  | .release _ => .release
  | .redeem _ _ _ _ => .redeem
  | .load _ _ _ => .load
  | .collect => .collect
  | .status => .status
  | .portStatus _ => .portStatus
  | .ident => .ident
  | .setSeries _ _ => .setSeries
  | .readSeries _ => .readSeries
  | .issue _ _ => .issue
  | .block _ => .block
  | .unblock _ => .unblock
  | .retire _ => .retire
  | .editCard _ _ _ _ _ => .editCard
  | .readCard _ => .readCard
  | .readHold _ => .readHold
  | .setTime _ => .setTime
  | .search _ _ _ _ _ _ => .search
  | .tally _ _ => .tally
  | .purge _ _ => .purge
  | .issueRun _ _ _ _ => .issueRun
  | .cancelSweep _ => .cancelSweep
  | .closeDay => .closeDay
  | .confirmClose => .confirmClose
  | .dayReport _ => .dayReport
  | .accounts => .accounts
  | .trialSet _ _ => .trialSet
  | .setPort _ _ _ => .setPort
  | .setTiming _ _ _ _ _ _ => .setTiming
  | .resetPort _ => .resetPort
  | .restorePort _ => .restorePort

/-- A taken request in a request queue, with the tag its answer will echo (R154). -/
structure QueuedRequest where
  tag : Byte
  request : Request
  deriving DecidableEq, Repr

/-! ### Answers -/

/-- The outcomes (11.4). -/
inductive OutcomeCode where
  | done | held | renewed | captured | released | redeemed | loaded | probed | accepted | cancelled | closeReady
  | closed | notice | none
  | busy | badRequest | notPermitted | badField | overlap | seriesInUse | unknownCard | notBlank | wrongState
  | hasHolds | portMuted | notIssued | cardBlocked | cardRetired | useLimit | noFunds | cardHoldsFull | poolFull
  | holdGone | notYours | renewLimit | short | atCeiling | sweepsBusy | notRunning | closeBusy | noClose | notKept
  | trialInUse | lastOffice
  deriving DecidableEq, Repr, Inhabited

/-- What a PORT-STATUS answer carries (R158). -/
structure PortReport where
  role : Role
  mode : Mode
  health : Health
  errorCount : Nat
  timeout : Nat
  recovery : Recovery
  requests : Nat
  answers : Nat
  notices : Nat
  wait : Bool
  attn : Bool
  idleRun : Nat
  deriving DecidableEq, Repr, Inhabited

/-- The answers, with the fields their rules give (11.4). `plain` is an outcome that carries nothing. -/
inductive Answer where
  | plain (outcome : OutcomeCode)
  | probed (trial : Bool) (state : CardState) (value available holds usesLeft : Nat)
  | held (trial : Bool) (tag : HoldTag) (amount available deadline : Nat)
  | noFunds (trial : Bool) (available : Nat)
  | renewed (deadline : Nat)
  | captured (amount value : Nat)
  | short (hold available : Nat)
  | released (amount available : Nat)
  | redeemed (trial : Bool) (amount value : Nat)
  | loaded (trial shortApplied : Bool) (amount value : Nat)
  | atCeiling (trial : Bool) (value ceiling : Nat)
  | seriesRecord (entry : EntryId) (record : SeriesEntry)
  | issued (slot value : Nat)
  | stateSet (slot : Nat) (state : CardState)
  | retired (slot amount : Nat)
  | edited (slot value held useDay uses : Nat)
  | cardRecord (slot : Nat) (card : Card) (available todaysUses : Nat) (tags : List HoldTag)
  | holdRecord (index : Nat) (hold : Hold) (entry : Option EntryId)
  | hasHolds (count : Nat)
  | timeSet (before after : Nat)
  | accepted (unit : UnitId)
  | cancelled (unit : UnitId) (kind : SweepKind)
  | closeReady (day : Nat) (figures : Figures) (deadline : Nat)
  | closeBusy (owner : PortId)
  | closed (day newDay : Nat)
  | dayRecord (record : ClosedDay)
  | notKept (oldest newest : Nat)
  | accounts (lifetime current next : Figures) (day : Nat) (close : CloseState) (records : Nat)
  | trialCards (cards : Vector Card 4)
  | trialInUse (cards : Vector Card 4)
  | portSet (role : Role) (mode : Mode)
  | timingSet (timeout : Nat) (recovery : Recovery) (window : Nat) (base : TimeBase) (divisor : Nat)
  | restored (healthBefore : Health) (countBefore : Nat) (healthAfter : Health) (countAfter : Nat)
  | notice (notice : Notice) (overrun : Bool) (left : Nat)
  | status (freeHolds : Nat) (sweeps : List (Option SweepKind)) (close : Option PortId) (day time : Nat)
  | portRecord (report : PortReport)
  | identity
  deriving DecidableEq, Repr

/-- An answer with the request tag it echoes. -/
structure TaggedAnswer where
  tag : Byte
  answer : Answer
  deriving DecidableEq, Repr

/-! ### Ports and the grant in progress -/

/-- Stage of a port's receiver with the bytes of the frame taken so far (R149). -/
inductive Receiver where
  | hunt
  | length
  | body (length : Nat) (got : List Byte)
  | check (body : List Byte) (first : Option Byte)
  deriving DecidableEq, Repr, Inhabited

/-- A link port (chapters 9 and 10). Queues stand oldest first. -/
structure Port where
  role : Role
  mode : Mode
  health : Health
  errorCount : Nat
  idleRun : Nat
  timeout : Nat
  recovery : Recovery
  requests : List QueuedRequest
  answers : List TaggedAnswer
  notices : List NoticeEntry
  receiver : Receiver
  gap : Nat
  sending : Option (List Byte)
  deriving DecidableEq, Repr

/-- A port at power-on, with the role it starts in (R163). -/
def Port.start (role : Role) : Port where
  role := role
  mode := .normal
  health := .active
  errorCount := 0
  idleRun := 0
  timeout := 20
  recovery := .drop
  requests := []
  answers := []
  notices := []
  receiver := .hunt
  gap := 0
  sending := none

/-- What STATUS reads of state that changes within grants: the free hold count, the kind of each running sweep, the
owner of a pending close and the day number (R158). -/
structure StatusView where
  freeHolds : Nat
  sweeps : List (Option SweepKind)
  close : Option PortId
  day : Nat
  deriving DecidableEq, Repr, Inhabited

/-- A port grant between grant and completion (R31): the answer formed, whether it is to be discarded, and what STATUS
reads meanwhile (R158). -/
structure InFlight where
  port : PortId
  tag : Byte
  answer : Answer
  discarded : Bool
  before : StatusView
  deriving DecidableEq, Repr

/-- A list of records by key, one key to a record, the unlisted ones at their power-on value. -/
abbrev Table (α : Type) := List (Nat × α)

end Sys2Proof.Machine
end

