-- ==== Sys2Proof/Machine/State.lean ====
section
/-! DEFINITION. The state of the FZ7140, why a step could stop, and the state after power-on. -/

namespace Sys2Proof.Machine

/-- Why a command could stop the machine. The manual names no trap and no stop: every bad frame is counted, every bad
request is answered. No fault exists. -/
inductive Fault where
  deriving DecidableEq, Repr

/-- Why a command could have no meaning here. -/
inductive Refusal where
  /-- Raised by an arm of exec whose command has no meaning yet; no arm raises it. Safe: the model stops. -/
  | notModelled (mnemonic : String)
  deriving DecidableEq, Repr

/-- The whole state. `cards` lists the card records that differ from a BLANK record at power-on, `holds` the hold
records that differ from one at power-on. -/
structure State where
  /-- RESET_N is held low (R163). -/
  resetLow : Bool
  /-- Line rate sampled from the straps (R177). -/
  lineRate : LineRate
  /-- Device clock (R86 to R88). -/
  clock : Clock
  /-- Series table (R2). -/
  series : Vector SeriesEntry 16
  /-- Card table, by slot (R16). -/
  cards : Table Card
  /-- Hold pool, by index (R37). -/
  holds : Table Hold
  /-- Free list, head first (R41). -/
  freeList : List Nat
  /-- Expiry list, head first; the deadlines are those of the records (R43). -/
  expiry : List Nat
  /-- Trial cards (R140). -/
  trialCards : Vector Card 4
  /-- Trial base values (R140). -/
  trialBases : Vector Nat 4
  /-- Last-granted position (R28). -/
  lastGranted : Position
  /-- Port grant in progress (R31). -/
  inFlight : Option InFlight
  /-- Sweep units S0 and S1 (R102). -/
  sweeps : Vector Sweep 2
  /-- Accounts block (chapter 7). -/
  accounts : Accounts
  /-- Link ports LP0 to LP5. -/
  ports : Vector Port 6
  /-- The model's own field: commands waiting, first in, first out. -/
  pending : List Instr
  deriving DecidableEq, Repr

/-- The state after power-on (R14, R34, R60, R92, R101, R122, R138, R148, R163, R176), with RESET_N high and both straps
low (DESIGN CHOICE, log 7 and log 8) and no command waiting. -/
def State.reset : State where
  resetLow := false
  lineRate := .b9600
  clock := ⟨0, .tick, 0, 0⟩
  series := Vector.replicate 16 .cleared
  cards := []
  holds := []
  freeList := List.range Config.holdRecords
  expiry := []
  trialCards := Vector.replicate 4 .trialStart
  trialBases := Vector.replicate 4 10000
  lastGranted := 8
  inFlight := none
  sweeps := Vector.replicate 2 .cleared
  accounts := .start
  ports := (Vector.replicate 6 (.start .till)).set 0 (.start .office)
  pending := []

end Sys2Proof.Machine
end

