-- ==== Sys2Proof/Machine/Store.lean ====
section
/-! DEFINITION. Reading and writing the stores: tables by key, vectors by number, and the one accessor of each record.
Every table is in one canonical form, `Table.wf`: keys strictly rising, no record equal to the power-on one. -/

namespace Sys2Proof.Machine

/-- The record at a key; an unlisted key holds the power-on record `d`. -/
def Table.look {α : Type} (d : α) : Table α → Nat → α
  | [], _ => d
  | (k, v) :: rest, n => if k = n then v else Table.look d rest n

/-- Enters a record before the first entry of a higher key. -/
def Table.insert {α : Type} (n : Nat) (v : α) : Table α → Table α
  | [] => [(n, v)]
  | (k, w) :: rest => if n < k then (n, v) :: (k, w) :: rest else (k, w) :: Table.insert n v rest

/-- The table without a key. -/
def Table.drop {α : Type} (n : Nat) (t : Table α) : Table α :=
  t.filter fun e => e.1 ≠ n

/-- Writes the record at a key, keeping the canonical form: a record equal to the power-on one is unlisted. -/
def Table.put {α : Type} [DecidableEq α] (d : α) (n : Nat) (v : α) (t : Table α) : Table α :=
  if v = d then Table.drop n t else Table.insert n v (Table.drop n t)

/-- Writes every record by `f`, keeping the canonical form (for an `f` that keeps the power-on record). -/
def Table.mapRecords {α : Type} [DecidableEq α] (d : α) (f : α → α) (t : Table α) : Table α :=
  (t.map fun e => (e.1, f e.2)).filter fun e => e.2 ≠ d

/-- The canonical form: keys strictly rising and no record equal to the power-on one. -/
abbrev Table.wf {α : Type} [DecidableEq α] (d : α) (t : Table α) : Prop :=
  (t.map Prod.fst).Pairwise (· < ·) ∧ ∀ e ∈ t, e.2 ≠ d

/-- Applies a function to every element of a vector. -/
def mapVec {α β : Type} {n : Nat} (f : α → β) (v : Vector α n) : Vector β n :=
  ⟨⟨v.toList.map f⟩, by simp⟩

/-- The six ports in order. -/
def allPorts : List PortId := [0, 1, 2, 3, 4, 5]

/-- The sixteen series entries in priority order (1.2). -/
def allEntries : List EntryId := [0, 1, 2, 3, 4, 5, 6, 7, 8, 9, 10, 11, 12, 13, 14, 15]

/-! ### Ports -/

/-- A port's record. -/
def State.port (s : State) (p : PortId) : Port :=
  s.ports[p]

/-- Writes a port's record by `f`. -/
def State.modifyPort (s : State) (p : PortId) (f : Port → Port) : State :=
  { s with ports := s.ports.set p.val (f (s.port p)) p.isLt }

/-! ### Series entries -/

/-- A series entry. -/
def State.entry (s : State) (e : EntryId) : SeriesEntry :=
  s.series[e]

/-- Writes a series entry by `f`. -/
def State.modifyEntry (s : State) (e : EntryId) (f : SeriesEntry → SeriesEntry) : State :=
  { s with series := s.series.set e.val (f (s.entry e)) e.isLt }

/-! ### Sweep units -/

/-- A sweep unit. -/
def State.sweep (s : State) (u : UnitId) : Sweep :=
  s.sweeps[u]

/-- Writes a sweep unit by `f`. -/
def State.modifySweep (s : State) (u : UnitId) (f : Sweep → Sweep) : State :=
  { s with sweeps := s.sweeps.set u.val (f (s.sweep u)) u.isLt }

/-! ### Hold records -/

/-- A hold record (R37). -/
def State.hold (s : State) (i : Nat) : Hold :=
  Table.look Hold.fresh s.holds i

/-- Writes a hold record. -/
def State.setHold (s : State) (i : Nat) (h : Hold) : State :=
  { s with holds := Table.put Hold.fresh i h s.holds }

/-! ### Cards -/

/-- Contribution of a card to a TALLY: value, held and 1 for an issued card, nothing otherwise (R112). -/
def Card.contribution (c : Card) : Drift :=
  match c.state with
  | .active | .blocked => ⟨BitVec.ofNat 64 c.value, BitVec.ofNat 64 c.held, 1⟩
  | .blank | .retired => .zero

/-- The change of contribution a write of a card makes (R113). -/
def driftOf (old new : Card) : Drift where
  value := new.contribution.value - old.contribution.value
  held := new.contribution.held - old.contribution.held
  count := new.contribution.count - old.contribution.count

/-- The slot lies behind the cursor of a RUNNING TALLY (R113). -/
def Sweep.hasTallied (w : Sweep) (slot : Nat) : Bool :=
  match w.params with
  | .tally start stop => w.running && decide (start ≤ slot) && decide (slot < w.cursor) && decide (slot ≤ stop)
  | _ => false

/-- Adds a change at a slot to the drift of a TALLY that has passed the slot (R113). -/
def Sweep.drifted (slot : Nat) (change : Drift) (w : Sweep) : Sweep :=
  if w.hasTallied slot then { w with drift := w.drift.add change } else w

/-- A card record of the card table (R16). -/
def State.slotCard (s : State) (slot : Nat) : Card :=
  Table.look Card.blank s.cards slot

/-- The card record or trial card a reference names. -/
def State.card (s : State) : CardRef → Card
  | .real slot => s.slotCard slot
  | .trial t => s.trialCards[t]

/-- Writes a card record; every RUNNING TALLY that has passed its slot takes the change of contribution into its drift
within the same grant (R113). -/
def State.setSlotCard (s : State) (slot : Nat) (c : Card) : State :=
  { s with
    cards := Table.put Card.blank slot c s.cards
    sweeps := mapVec (Sweep.drifted slot (driftOf (s.slotCard slot) c)) s.sweeps }

/-- Writes a trial card; trial cards lie outside every TALLY (R142). -/
def State.setTrialCard (s : State) (t : TrialId) (c : Card) : State :=
  { s with trialCards := s.trialCards.set t.val c t.isLt }

/-- Writes the card record or trial card a reference names. -/
def State.setCard (s : State) : CardRef → Card → State
  | .real slot, c => s.setSlotCard slot c
  | .trial t, c => s.setTrialCard t c

/-- Writes device time. -/
def State.setTime (s : State) (t : Nat) : State :=
  { s with clock := { s.clock with time := t } }

end Sys2Proof.Machine
end

