-- ==== Sys2Proof/Machine/Flags.lean ====
section
/-! DEFINITION. Figures and levels derived from the state and stored nowhere: available and today's uses, answer places,
WAIT and ATTN, the health state of an error count, and what STATUS reads. -/

namespace Sys2Proof.Machine

/-! ### Cards -/

/-- Available: value minus held (R17). -/
def Card.available (c : Card) : Nat :=
  c.value - c.held

/-- Today's uses: the uses counted on the current day (R17). -/
def Card.todaysUses (c : Card) (day : Nat) : Nat :=
  if c.useDay = day then c.uses else 0

/-- Uses left today that PROBE reports; 255 stands for no limit (R67). -/
def Card.usesLeft (c : Card) (limit day : Nat) : Nat :=
  if limit = 0 then 255 else if c.todaysUses day < limit then limit - c.todaysUses day else 0

/-- Counts one use (R18). -/
def Card.countUse (c : Card) (day : Nat) : Card :=
  if c.useDay = day then { c with uses := min (c.uses + 1) 255 } else { c with useDay := day, uses := 1 }

/-- The tag of a hold: index in the low 12 bits, generation in the upper 4 (R40). -/
def holdTag (index : Nat) (generation : BitVec 4) : HoldTag :=
  generation ++ BitVec.ofNat 12 index

/-- The hold index a tag names (R40). -/
def tagIndex (t : HoldTag) : Nat :=
  (t.extractLsb' 0 12).toNat

/-- The generation a tag carries (R40). -/
def tagGeneration (t : HoldTag) : BitVec 4 :=
  t.extractLsb' 12 4

/-! ### Ports -/

/-- Health state of an error count outside OFF (R165). -/
def healthOfCount (count : Nat) : Health :=
  if count < 96 then .active else if count < 128 then .warned else .muted

/-- A request of the port stands between grant and completion (R154, R156). -/
def State.inFlightAt (s : State) (p : PortId) : Bool :=
  match s.inFlight with
  | some f => decide (f.port = p)
  | none => false

/-- Occupied and promised answer places of a port (R154). -/
def State.usedPlaces (s : State) (p : PortId) : Nat :=
  (s.port p).answers.length + (s.port p).requests.length + (if s.inFlightAt p then 1 else 0)

/-- Free answer places of a port (R154). -/
def State.freePlaces (s : State) (p : PortId) : Nat :=
  Config.answerPlaces - s.usedPlaces p

/-- The request queue is full: four requests, or no free answer place (R154). -/
def State.queueFull (s : State) (p : PortId) : Bool :=
  decide (Config.requestPlaces ≤ (s.port p).requests.length) || decide (s.freePlaces p = 0)

/-- Level of a port's WAIT output: high while the request queue is full (R154), low while RESET_N is low (R163). -/
def State.waitLevel (s : State) (p : PortId) : Bool :=
  !s.resetLow && s.queueFull p

/-- Level of a port's ATTN output: high while the notice queue is not empty (R172), low while RESET_N is low (R163). -/
def State.attnLevel (s : State) (p : PortId) : Bool :=
  !s.resetLow && !(s.port p).notices.isEmpty

/-! ### What STATUS reads -/

/-- Kind of the sweep a unit runs, absent while IDLE (R158). -/
def Sweep.runningKind (w : Sweep) : Option SweepKind :=
  if w.running then some w.params.kind else none

/-- What STATUS reads of the state that changes within grants (R158). -/
def State.view (s : State) : StatusView where
  freeHolds := s.freeList.length
  sweeps := s.sweeps.toList.map Sweep.runningKind
  close := s.accounts.close.owner?
  day := s.accounts.day

/-- The same as the last completed grant left it: a grant in progress counts as not yet made (R158). -/
def State.settledView (s : State) : StatusView :=
  match s.inFlight with
  | some f => f.before
  | none => s.view

/-! ### The ring -/

/-- A claimant of the card engine (R29). -/
inductive Claimant where
  | port (p : PortId)
  | expiry
  | sweep (u : UnitId)
  deriving DecidableEq, Repr

/-- The claimant at a position (R29). -/
def claimantAt : Position → Claimant
  | 0 => .port 0
  | 1 => .port 1
  | 2 => .port 2
  | 3 => .port 3
  | 4 => .port 4
  | 5 => .port 5
  | 6 => .expiry
  | 7 => .sweep 0
  | 8 => .sweep 1

/-- The position of a claimant (R29). -/
def Claimant.position : Claimant → Position
  | .port p => ⟨p.val, by omega⟩
  | .expiry => 6
  | .sweep u => ⟨7 + u.val, by omega⟩

/-- The port answers the request itself (R29, R156). -/
def Request.portLocal : Request → Bool
  | .collect | .status | .portStatus _ | .ident => true
  | _ => false

/-- The head of the expiry list is due (R44). -/
def State.headDue (s : State) : Bool :=
  match s.expiry with
  | [] => false
  | i :: _ => decide ((s.hold i).deadline ≤ s.clock.time)

/-- A claimant claims (R29). -/
def State.claims (s : State) : Claimant → Bool
  | .port p =>
    match (s.port p).requests with
    | [] => false
    | q :: _ => !q.request.portLocal
  | .expiry => s.headDue
  | .sweep u => (s.sweep u).running

/-- The nine positions in the order the engine tries them: after the last-granted one first, that one last (R30). -/
def ringFrom (last : Position) : List Position :=
  [last + 1, last + 2, last + 3, last + 4, last + 5, last + 6, last + 7, last + 8, last]

/-- The position the engine grants next: none while it is busy or nobody claims (R30, R33). -/
def State.nextGrant (s : State) : Option Claimant :=
  match s.inFlight with
  | some _ => none
  | none => ((ringFrom s.lastGranted).find? fun pos => s.claims (claimantAt pos)).map claimantAt

/-- The port request the engine grants next, with its port. -/
def State.nextRequest (s : State) : Option (PortId × QueuedRequest) :=
  match s.nextGrant with
  | some (.port p) => (s.port p).requests.head?.map fun q => (p, q)
  | _ => none

/-- The sweep unit the engine grants next. -/
def State.nextSweep (s : State) : Option UnitId :=
  match s.nextGrant with
  | some (.sweep u) => some u
  | _ => none

end Sys2Proof.Machine
end

