-- ==== Sys2Proof/Machine/Lines.lean ====
section
/-! DEFINITION. Bytes on a link port's line: the CRC, the frame, and the byte layouts of answers and notices
(R150, R177, R179, R180). -/

namespace Sys2Proof.Machine

/-! ### CRC -/

/-- One bit entering the CRC register (R150). -/
def crcBit (r : BitVec 16) (bit : Bool) : BitVec 16 :=
  if r.msb != bit then (r <<< 1) ^^^ 0x1021#16 else r <<< 1

/-- One byte entering the CRC register, most significant bit first (R150). -/
def crcByte (r : BitVec 16) (b : Byte) : BitVec 16 :=
  [7, 6, 5, 4, 3, 2, 1, 0].foldl (fun acc i => crcBit acc (b.getLsbD i)) r

/-- The CRC of a run of bytes (R150). -/
def crc (bytes : List Byte) : BitVec 16 :=
  bytes.foldl crcByte 0xFFFF#16

/-- The length byte of a body. -/
def lengthByte (body : List Byte) : Byte :=
  BitVec.ofNat 8 body.length

/-- The CRC of the frame with this body: over its length byte and its body bytes (R150). -/
def frameCrc (body : List Byte) : BitVec 16 :=
  crc (lengthByte body :: body)

/-- The upper byte of a CRC, sent first (11.1). -/
def highByte (r : BitVec 16) : Byte :=
  r.extractLsb' 8 8

/-- The lower byte of a CRC. -/
def lowByte (r : BitVec 16) : Byte :=
  r.extractLsb' 0 8

/-- A frame: start byte, length byte, body, CRC with the more significant byte first (11.1). -/
def frame (body : List Byte) : List Byte :=
  Config.startByte :: lengthByte body :: (body ++ [highByte (frameCrc body), lowByte (frameCrc body)])

/-! ### Field encodings (11.2) -/

/-- A number in `n` bytes, most significant byte first. -/
def natBytes : Nat → Nat → List Byte
  | 0, _ => []
  | n + 1, v => BitVec.ofNat 8 (v / 256 ^ n) :: natBytes n v

/-- The number a run of bytes holds, most significant byte first. -/
def bytesNat (bytes : List Byte) : Nat :=
  bytes.foldl (fun acc b => acc * 256 + b.toNat) 0

/-- A set or clear flag, a yes or no, an output level. -/
def boolByte (b : Bool) : Byte :=
  if b then 1 else 0

/-- Card state code. -/
def CardState.code : CardState → Byte
  | .blank => 0
  | .active => 1
  | .blocked => 2
  | .retired => 3

/-- Health state code. -/
def Health.code : Health → Byte
  | .active => 0
  | .warned => 1
  | .muted => 2
  | .off => 3

/-- Role code. -/
def Role.code : Role → Byte
  | .till => 0
  | .office => 1

/-- Mode code. -/
def Mode.code : Mode → Byte
  | .normal => 0
  | .trial => 1

/-- Recovery choice code. -/
def Recovery.code : Recovery → Byte
  | .drop => 0
  | .reset => 1

/-- Time base code. -/
def TimeBase.code : TimeBase → Byte
  | .tick => 0
  | .divided => 1

/-- Activity kind code. -/
def ActivityKind.code : ActivityKind → Byte
  | .reserve => 0
  | .capture => 1
  | .release => 2
  | .redeem => 3
  | .load => 4
  | .expiry => 5

/-- Sweep kind code. -/
def SweepKind.code : SweepKind → Byte
  | .search => 0
  | .tally => 1
  | .purge => 2
  | .issueRun => 3

/-- Ending reason code. -/
def SweepReason.code : SweepReason → Byte
  | .hit => 0
  | .miss => 1
  | .limit => 2
  | .blockedEnd => 3
  | .done => 4
  | .cancelled => 5

/-- Drop cause code. -/
def DropCause.code : DropCause → Byte
  | .strayRequest => 0
  | .window => 1
  | .portReset => 2
  | .portOff => 3
  | .roleChange => 4

/-- PORT-STATE cause code. -/
def HealthCause.code : HealthCause → Byte
  | .errors => 0
  | .goodFrames => 1
  | .idleRecovery => 2
  | .restore => 3

/-- Outcome code (11.4). -/
def OutcomeCode.code : OutcomeCode → Byte
  | .done => 0x00
  | .held => 0x01
  | .renewed => 0x02
  | .captured => 0x03
  | .released => 0x04
  | .redeemed => 0x05
  | .loaded => 0x06
  | .probed => 0x07
  | .accepted => 0x08
  | .cancelled => 0x09
  | .closeReady => 0x0A
  | .closed => 0x0B
  | .notice => 0x0C
  | .none => 0x0D
  | .busy => 0x40
  | .badRequest => 0x41
  | .notPermitted => 0x42
  | .badField => 0x43
  | .overlap => 0x44
  | .seriesInUse => 0x45
  | .unknownCard => 0x46
  | .notBlank => 0x47
  | .wrongState => 0x48
  | .hasHolds => 0x49
  | .portMuted => 0x4A
  | .notIssued => 0x4B
  | .cardBlocked => 0x4C
  | .cardRetired => 0x4D
  | .useLimit => 0x4E
  | .noFunds => 0x4F
  | .cardHoldsFull => 0x50
  | .poolFull => 0x51
  | .holdGone => 0x52
  | .notYours => 0x53
  | .renewLimit => 0x54
  | .short => 0x55
  | .atCeiling => 0x56
  | .sweepsBusy => 0x57
  | .notRunning => 0x58
  | .closeBusy => 0x59
  | .noClose => 0x5A
  | .notKept => 0x5B
  | .trialInUse => 0x5C
  | .lastOffice => 0x5D

/-- A slot, three bytes. -/
def slotBytes (slot : Nat) : List Byte := natBytes 3 slot

/-- An amount, three bytes. -/
def amountBytes (amount : Nat) : List Byte := natBytes 3 amount

/-- A device time or deadline, four bytes. -/
def timeBytes (time : Nat) : List Byte := natBytes 4 time

/-- A day number, two bytes. -/
def dayBytes (day : Nat) : List Byte := natBytes 2 day

/-- A port, unit, entry or count of 0..255, one byte. -/
def countByte (n : Nat) : List Byte := natBytes 1 n

/-- A lifetime counter or day-set figure, eight bytes. -/
def wordBytes (w : Word64) : List Byte := natBytes 8 w.toNat

/-- A sweep sum, drift or freed amount, six bytes: the low 48 bits (11.5). -/
def sumBytes (w : Word64) : List Byte := natBytes 6 w.toNat

/-- A hold tag or till id, two bytes. -/
def pairBytes (w : BitVec 16) : List Byte := natBytes 2 w.toNat

/-- A card code, six bytes. -/
def codeBytes (c : CardCode) : List Byte := natBytes 6 c.toNat

/-- The six figures in their order (R179). -/
def Figures.bytes (f : Figures) : List Byte :=
  wordBytes f.issued ++ wordBytes f.loaded ++ wordBytes f.captured ++ wordBytes f.writtenOff ++ wordBytes f.adjusted
    ++ wordBytes f.captureCount

/-! ### Notice records (R180) -/

/-- Results of a SWEEP-DONE by kind (R180). A SEARCH slot reported as none is sent as zero (R179). -/
def SweepReport.bytes : SweepReport → List Byte
  | .search slot examined blockedSeen => slotBytes (slot.getD 0) ++ natBytes 3 examined ++ [boolByte blockedSeen]
  | .tally valueSum heldSum cardCount drift time =>
    sumBytes valueSum ++ sumBytes heldSum ++ natBytes 3 cardCount ++ sumBytes drift.value ++ sumBytes drift.held
      ++ natBytes 4 drift.count.toNat ++ timeBytes time
  | .purge freedCount freedAmount => natBytes 2 freedCount ++ sumBytes freedAmount
  | .issueRun issued skipped valueIssued => natBytes 3 issued ++ natBytes 3 skipped ++ natBytes 6 valueIssued

/-- Notice kind code. -/
def Notice.kindByte : Notice → Byte
  | .holdExpired _ _ _ _ => 1
  | .holdsPurged _ _ => 2
  | .sweepDone _ _ _ _ => 3
  | .closeDropped _ _ => 4
  | .portState _ _ _ _ _ => 5

/-- Hold kind and card of a HOLD-EXPIRED record (R180). -/
def NoticeCard.bytes : NoticeCard → List Byte
  | .real code => 0 :: codeBytes code
  | .trial card => 1 :: natBytes 6 card.val

/-- A notice record (R180). -/
def Notice.bytes : Notice → List Byte
  | .holdExpired tag card amount till => pairBytes tag ++ card.bytes ++ amountBytes amount ++ pairBytes till
  | .holdsPurged count amount => natBytes 2 count ++ sumBytes amount
  | .sweepDone unit reason cursor report =>
    countByte unit.val ++ [report.kind.code, reason.code] ++ natBytes 3 cursor ++ report.bytes
  | .closeDropped day cause => dayBytes day ++ [cause.code]
  | .portState port before after count cause =>
    countByte port.val ++ [before.code, after.code] ++ countByte count ++ [cause.code]

/-! ### Answers (R179) -/

/-- Mark byte: trial mark in bit 0, SHORT-APPLIED in bit 1 (R179). -/
def markByte (trial shortApplied : Bool) : Byte :=
  boolByte trial + 2 * boolByte shortApplied

/-- Last activity in the READ-CARD answer: a presence byte and eight bytes, zeros when absent (R179). -/
def activityBytes : Option Activity → List Byte
  | none => natBytes 9 0
  | some a => 1 :: (countByte a.port.val ++ pairBytes a.till ++ timeBytes a.time ++ [a.kind.code])

/-- Last activity of a trial card: presence in bit 7, port in bits 6..4, activity kind in bits 2..0; till id; time
(11.4). Bit 3, which the manual gives no meaning, is sent as 0, and an absent last activity as seven zero bytes: the
model's choice (log 22, DESIGN CHOICE). -/
def trialActivityBytes : Option Activity → List Byte
  | none => natBytes 7 0
  | some a => (BitVec.ofNat 8 (128 + 16 * a.port.val) + a.kind.code) :: (pairBytes a.till ++ timeBytes a.time)

/-- A trial card in the TRIAL-SET answer, 17 bytes (11.4). -/
def trialCardBytes (c : Card) : List Byte :=
  amountBytes c.value ++ amountBytes c.held ++ countByte c.chain.length ++ dayBytes c.useDay ++ countByte c.uses
    ++ trialActivityBytes c.last

/-- The twelve fields of a series entry (R12). -/
def SeriesEntry.bytes (e : SeriesEntry) : List Byte :=
  [boolByte e.fields.enabled] ++ natBytes 4 e.fields.matchBits.toNat ++ natBytes 4 e.fields.mask.toNat
    ++ slotBytes e.fields.base ++ natBytes 3 e.fields.count ++ amountBytes e.fields.ceiling
    ++ natBytes 2 e.fields.shortLifetime ++ natBytes 2 e.fields.longLifetime ++ countByte e.fields.useLimit
    ++ [boolByte e.fields.partialAllowed] ++ countByte e.fields.renewLimit ++ natBytes 2 e.openHolds

/-- Kind and card of a hold record; the card in three bytes (log 12). -/
def CardRef.bytes : CardRef → List Byte
  | .real slot => 0 :: slotBytes slot
  | .trial card => 1 :: slotBytes card.val

/-- Governing entry number, 0xFF when there is none (R179). -/
def entryByte : Option EntryId → List Byte
  | none => [0xFF]
  | some e => countByte e.val

/-- State and kind of a sweep unit; the kind of an IDLE unit is sent as zero (R158, R179). -/
def sweepBytes : Option SweepKind → List Byte
  | none => [0, 0]
  | some k => [1, k.code]

/-- Close state and owner port; the owner of an OPEN close is sent as zero (R158, R179). -/
def closeBytes : Option PortId → List Byte
  | none => [0, 0]
  | some p => 1 :: countByte p.val

/-- Window deadline of a close, zero in OPEN (R179). -/
def CloseState.deadlineBytes : CloseState → List Byte
  | .opened => timeBytes 0
  | .closing _ _ deadline => timeBytes deadline

/-- The outcome of an answer. -/
def Answer.outcome : Answer → OutcomeCode
  | .plain o => o
  | .probed _ _ _ _ _ _ => .probed
  | .held _ _ _ _ _ => .held
  | .noFunds _ _ => .noFunds
  | .renewed _ => .renewed
  | .captured _ _ => .captured
  | .short _ _ => .short
  | .released _ _ => .released
  | .redeemed _ _ _ => .redeemed
  | .loaded _ _ _ _ => .loaded
  | .atCeiling _ _ _ => .atCeiling
  | .hasHolds _ => .hasHolds
  | .accepted _ => .accepted
  | .cancelled _ _ => .cancelled
  | .closeReady _ _ _ => .closeReady
  | .closeBusy _ => .closeBusy
  | .closed _ _ => .closed
  | .notKept _ _ => .notKept
  | .trialInUse _ => .trialInUse
  | .notice _ _ _ => .notice
  | .seriesRecord _ _ | .issued _ _ | .stateSet _ _ | .retired _ _ | .edited _ _ _ _ _ | .cardRecord _ _ _ _ _
  | .holdRecord _ _ _ | .timeSet _ _ | .dayRecord _ | .accounts _ _ _ _ _ _ | .trialCards _ | .portSet _ _
  | .timingSet _ _ _ _ _ | .restored _ _ _ _ | .status _ _ _ _ _ | .portRecord _ | .identity => .done

/-- Part byte of a frame of a run: part number in the upper four bits, number of parts in the lower four (R177). -/
def partByte (part parts : Nat) : Byte :=
  BitVec.ofNat 8 (16 * part + parts)

/-- The field bytes of the frames of a run of trial cards (11.4). -/
def trialParts (cards : Vector Card 4) : List (List Byte) :=
  [partByte 1 2 :: (trialCardBytes cards[0] ++ trialCardBytes cards[1]),
    partByte 2 2 :: (trialCardBytes cards[2] ++ trialCardBytes cards[3])]

/-- The record a PORT-STATUS answer carries, in the order R158 lists it. -/
def PortReport.bytes (r : PortReport) : List Byte :=
  [r.role.code, r.mode.code, r.health.code] ++ countByte r.errorCount ++ countByte r.timeout ++ [r.recovery.code]
    ++ countByte r.requests ++ countByte r.answers ++ countByte r.notices ++ [boolByte r.wait, boolByte r.attn]
    ++ countByte r.idleRun

/-- The fields of a TRIAL-IN-USE, in one frame: a free value (log 11), no longer than a body can hold (R144, R177). -/
def trialInUseBytes (cards : Vector Card 4) : List Byte :=
  (Config.trialInUseFields (cards.toList.flatMap trialCardBytes)).take (Config.longestBody - 2)

/-- The field bytes of each frame of an answer: one frame for every answer but the runs of ACCOUNTS and TRIAL-SET
(R177, R179). -/
def Answer.parts : Answer → List (List Byte)
  | .plain _ => [[]]
  | .probed trial state value available holds usesLeft =>
    [[markByte trial false, state.code] ++ amountBytes value ++ amountBytes available ++ countByte holds
      ++ countByte usesLeft]
  | .held trial tag amount available deadline =>
    [[markByte trial false] ++ pairBytes tag ++ amountBytes amount ++ amountBytes available ++ timeBytes deadline]
  | .noFunds trial available => [markByte trial false :: amountBytes available]
  | .renewed deadline => [timeBytes deadline]
  | .captured amount value => [amountBytes amount ++ amountBytes value]
  | .short hold available => [amountBytes hold ++ amountBytes available]
  | .released amount available => [amountBytes amount ++ amountBytes available]
  | .redeemed trial amount value => [markByte trial false :: (amountBytes amount ++ amountBytes value)]
  | .loaded trial shortApplied amount value => [markByte trial shortApplied :: (amountBytes amount ++ amountBytes value)]
  | .atCeiling trial value ceiling => [markByte trial false :: (amountBytes value ++ amountBytes ceiling)]
  | .seriesRecord entry record => [countByte entry.val ++ record.bytes]
  | .issued slot value => [slotBytes slot ++ amountBytes value]
  | .stateSet slot state => [slotBytes slot ++ [state.code]]
  | .retired slot amount => [slotBytes slot ++ amountBytes amount]
  | .edited slot value heldNow useDay uses =>
    [slotBytes slot ++ amountBytes value ++ amountBytes heldNow ++ dayBytes useDay ++ countByte uses]
  | .cardRecord slot card available todaysUses tags =>
    [slotBytes slot ++ [card.state.code] ++ amountBytes card.value ++ amountBytes card.held ++ amountBytes available
      ++ dayBytes card.useDay ++ countByte card.uses ++ countByte todaysUses ++ activityBytes card.last
      ++ countByte tags.length ++ tags.flatMap pairBytes]
  | .holdRecord index hold entry =>
    [natBytes 2 index ++ [boolByte hold.isOpen] ++ countByte hold.generation.toNat
      ++ pairBytes (holdTag index hold.generation) ++ hold.card.bytes ++ countByte hold.owner.val ++ pairBytes hold.till
      ++ amountBytes hold.amount ++ timeBytes hold.created ++ timeBytes hold.deadline ++ [boolByte hold.long]
      ++ countByte hold.renewals ++ entryByte entry]
  | .hasHolds count => [countByte count]
  | .timeSet before after => [timeBytes before ++ timeBytes after]
  | .accepted unit => [countByte unit.val]
  | .cancelled unit kind => [countByte unit.val ++ [kind.code]]
  | .closeReady day figures deadline => [dayBytes day ++ figures.bytes ++ timeBytes deadline]
  | .closeBusy owner => [countByte owner.val]
  | .closed day newDay => [dayBytes day ++ dayBytes newDay]
  | .dayRecord record => [dayBytes record.day ++ record.figures.bytes ++ countByte record.port.val ++ timeBytes record.time]
  | .notKept oldest newest => [dayBytes oldest ++ dayBytes newest]
  | .accounts lifetime current next day close records =>
    [partByte 1 3 :: (lifetime.bytes ++ dayBytes day ++ closeBytes close.owner? ++ close.deadlineBytes ++ countByte records),
      partByte 2 3 :: current.bytes, partByte 3 3 :: next.bytes]
  | .trialCards cards => trialParts cards
  | .trialInUse cards => [trialInUseBytes cards]
  | .portSet role mode => [[role.code, mode.code]]
  | .timingSet timeout recovery window base divisor =>
    [countByte timeout ++ [recovery.code] ++ countByte window ++ [base.code] ++ natBytes 3 divisor]
  | .restored healthBefore countBefore healthAfter countAfter =>
    [[healthBefore.code] ++ countByte countBefore ++ [healthAfter.code] ++ countByte countAfter]
  | .notice n overrun left => [[n.kindByte, boolByte overrun] ++ countByte left ++ n.bytes]
  | .status freeHolds sweeps close day time =>
    [natBytes 2 freeHolds ++ sweeps.flatMap sweepBytes ++ closeBytes close ++ dayBytes day ++ timeBytes time]
  | .portRecord report => [report.bytes]
  | .identity =>
    [natBytes 2 0x4A7E ++ natBytes 2 0x7140 ++ [0x01] ++ natBytes 3 6 ++ natBytes 3 16 ++ natBytes 3 Config.slots
      ++ natBytes 3 Config.holdRecords ++ natBytes 3 2 ++ natBytes 3 8]

/-- The bodies of the frames of an answer: tag, outcome, fields (11.1, R177). -/
def TaggedAnswer.bodies (a : TaggedAnswer) : List (List Byte) :=
  a.answer.parts.map fun fields => a.tag :: a.answer.outcome.code :: fields

/-- The bytes the transmitter sends for an answer: its frames back to back (R156, R177). -/
def TaggedAnswer.bytes (a : TaggedAnswer) : List Byte :=
  a.bodies.flatMap frame

end Sys2Proof.Machine
end

