-- ==== Sys2Proof/Machine/Operands.lean ====
section
/-! DEFINITION. Operands: from card codes and slots to cards and rules (R3, R5, R21, R141), and from the bytes of a frame
to a request (R152, R177, R178). -/

namespace Sys2Proof.Machine

/-! ### Codes and slots -/

/-- The series field of a code, its upper 28 bits (1.1). -/
def seriesField (c : CardCode) : BitVec 28 :=
  c.extractLsb' 20 28

/-- The serial field of a code, its lower 20 bits (1.1). -/
def serialField (c : CardCode) : Nat :=
  (c.extractLsb' 0 20).toNat

/-- An enabled entry matches a series field in the bits its mask selects (R3 step 1). -/
def SeriesFields.accepts (f : SeriesFields) (field : BitVec 28) : Bool :=
  f.enabled && decide (field &&& f.mask = f.matchBits &&& f.mask)

/-- A slot lies in the entry's slot range (1.2). -/
def SeriesFields.covers (f : SeriesFields) (slot : Nat) : Bool :=
  decide (f.base ≤ slot) && decide (slot < f.base + f.count)

/-- The rules an entry supplies (R6). -/
def SeriesFields.rules (f : SeriesFields) : CardRules where
  ceiling := f.ceiling
  shortLifetime := f.shortLifetime
  longLifetime := f.longLifetime
  useLimit := f.useLimit
  partialAllowed := f.partialAllowed
  renewLimit := f.renewLimit

/-- Resolution of a card code: the slot and the resolving entry, or none for UNKNOWN-CARD (R3). -/
def State.resolve (s : State) (c : CardCode) : Option (Nat × EntryId) :=
  match allEntries.find? fun e => (s.entry e).fields.accepts (seriesField c) with
  | none => none
  | some e =>
    if serialField c < (s.entry e).fields.count then some ((s.entry e).fields.base + serialField c, e) else none

/-- The governing entry of a slot (R5). -/
def State.governing (s : State) (slot : Nat) : Option EntryId :=
  allEntries.find? fun e => (s.entry e).fields.enabled && (s.entry e).fields.covers slot

/-- The rules of a card reached through a hold: those of the governing entry of its slot, or the trial limits
(R5, R140). -/
def State.rulesOf (s : State) : CardRef → CardRules
  | .real slot =>
    match s.governing slot with
    | some e => (s.entry e).fields.rules
    | none => Config.ungovernedRules slot
  | .trial _ => Config.trialRules

/-- The card code formed from a slot (R5). -/
def State.codeOfSlot (s : State) (slot : Nat) : CardCode :=
  match s.governing slot with
  | some e =>
    ((s.entry e).fields.matchBits &&& (s.entry e).fields.mask) ++ BitVec.ofNat 20 (slot - (s.entry e).fields.base)
  | none => Config.ungovernedCode slot

/-- How a notice names a card (R95). -/
def State.noticeCard (s : State) : CardRef → NoticeCard
  | .real slot => .real (s.codeOfSlot slot)
  | .trial t => .trial t

/-- The trial card a code selects: its two lowest bits (R141). -/
def trialOfCode (c : CardCode) : TrialId :=
  ⟨(c.extractLsb' 0 2).toNat, (c.extractLsb' 0 2).isLt⟩

/-- The card a till request reaches, with its rules. -/
structure Target where
  ref : CardRef
  rules : CardRules
  deriving DecidableEq, Repr

/-- The card a till request from a port reaches by code: a trial card in TRIAL mode, else what resolution gives; none
for UNKNOWN-CARD (R3, R141). -/
def State.target (s : State) (p : PortId) (c : CardCode) : Option Target :=
  match (s.port p).mode with
  | .trial => some ⟨.trial (trialOfCode c), Config.trialRules⟩
  | .normal => (s.resolve c).map fun r => ⟨.real r.1, (s.entry r.2).fields.rules⟩

/-- The slot and governing entry an office card request reaches; none for UNKNOWN-CARD (R21). -/
def State.locate (s : State) : Address → Option (Nat × EntryId)
  | .code c => s.resolve c
  | .slot n => (s.governing n).map fun e => (n, e)

/-- The slot a READ-CARD reaches: any slot, or what resolution gives (R26). -/
def State.locateAny (s : State) : Address → Option Nat
  | .code c => (s.resolve c).map Prod.fst
  | .slot n => some n

/-! ### Request kinds -/

/-- The kind a kind byte names (11.3). -/
def kindOfByte (b : Byte) : Option Kind :=
  match b.toNat with
  | 0x00 => some .idle
  | 0x10 => some .probe
  | 0x11 => some .reserve
  | 0x12 => some .renew
  | 0x13 => some .capture
  | 0x14 => some .release
  | 0x15 => some .redeem
  | 0x16 => some .load
  | 0x20 => some .collect
  | 0x21 => some .status
  | 0x22 => some .portStatus
  | 0x23 => some .ident
  | 0x30 => some .setSeries
  | 0x31 => some .readSeries
  | 0x32 => some .issue
  | 0x33 => some .block
  | 0x34 => some .unblock
  | 0x35 => some .retire
  | 0x36 => some .editCard
  | 0x37 => some .readCard
  | 0x38 => some .readHold
  | 0x40 => some .setTime
  | 0x41 => some .search
  | 0x42 => some .tally
  | 0x43 => some .purge
  | 0x44 => some .issueRun
  | 0x45 => some .cancelSweep
  | 0x50 => some .closeDay
  | 0x51 => some .confirmClose
  | 0x52 => some .dayReport
  | 0x53 => some .accounts
  | 0x54 => some .trialSet
  | 0x60 => some .setPort
  | 0x61 => some .setTiming
  | 0x62 => some .resetPort
  | 0x63 => some .restorePort
  | _ => none

/-- Body length of a request of each kind, tag and kind bytes included (11.3). -/
def Kind.bodyLength : Kind → Nat
  | .idle | .collect | .status | .ident | .closeDay | .confirmClose | .accounts => 2
  | .portStatus | .readSeries | .cancelSweep | .resetPort | .restorePort => 3
  | .renew | .release | .readHold | .dayReport => 4
  | .setPort => 5
  | .setTime | .purge => 6
  | .probe | .tally => 8
  | .capture | .block | .unblock | .retire | .readCard => 9
  | .setTiming => 10
  | .issue | .issueRun => 12
  | .load => 13
  | .redeem => 14
  | .reserve | .editCard | .trialSet => 15
  | .search => 23
  | .setSeries => 28

/-- The role permits the kind (R153); of PORT-STATUS this says only that some port may be named. -/
def Kind.permitted (role : Role) : Kind → Bool
  | .reserve | .renew | .capture | .release | .redeem | .load => role == .till
  | .idle | .probe | .collect | .ident | .portStatus => true
  | .status | .setSeries | .readSeries | .issue | .block | .unblock | .retire | .editCard | .readCard | .readHold
  | .setTime | .search | .tally | .purge | .issueRun | .cancelSweep | .closeDay | .confirmClose | .dayReport | .accounts
  | .trialSet | .setPort | .setTiming | .resetPort | .restorePort => role == .office

/-- A request is permitted when it is executed, against the role then held: a TILL port may name only itself in a
PORT-STATUS (R153). -/
def Request.permitted (role : Role) (p : PortId) (r : Request) : Bool :=
  match r with
  | .portStatus target => role == .office || target == p
  | _ => r.kind.permitted role

/-! ### Fields of a frame (11.2, 11.3, R178) -/

/-- The number in `n` bytes at an offset of the field bytes. -/
def fieldNat (f : List Byte) (offset n : Nat) : Nat :=
  bytesNat ((f.drop offset).take n)

/-- A flag or yes/no byte: 0 or 1; any other code is refused (R178). -/
def fieldBool (f : List Byte) (offset : Nat) : Option Bool :=
  match fieldNat f offset 1 with
  | 0 => some false
  | 1 => some true
  | _ => none

/-- A port, 0..5. -/
def fieldPort (f : List Byte) (offset : Nat) : Option PortId :=
  if h : fieldNat f offset 1 < 6 then some ⟨_, h⟩ else none

/-- A sweep unit, 0 or 1. -/
def fieldUnit (f : List Byte) (offset : Nat) : Option UnitId :=
  if h : fieldNat f offset 1 < 2 then some ⟨_, h⟩ else none

/-- A series entry number, 0..15. -/
def fieldEntry (f : List Byte) (offset : Nat) : Option EntryId :=
  if h : fieldNat f offset 1 < 16 then some ⟨_, h⟩ else none

/-- A role code. -/
def fieldRole (f : List Byte) (offset : Nat) : Option Role :=
  match fieldNat f offset 1 with
  | 0 => some .till
  | 1 => some .office
  | _ => none

/-- A mode code. -/
def fieldMode (f : List Byte) (offset : Nat) : Option Mode :=
  match fieldNat f offset 1 with
  | 0 => some .normal
  | 1 => some .trial
  | _ => none

/-- A recovery code. -/
def fieldRecovery (f : List Byte) (offset : Nat) : Option Recovery :=
  match fieldNat f offset 1 with
  | 0 => some .drop
  | 1 => some .reset
  | _ => none

/-- A time base code. -/
def fieldBase (f : List Byte) (offset : Nat) : Option TimeBase :=
  match fieldNat f offset 1 with
  | 0 => some .tick
  | 1 => some .divided
  | _ => none

/-- A card code, six bytes. -/
def fieldCode (f : List Byte) (offset : Nat) : CardCode :=
  BitVec.ofNat 48 (fieldNat f offset 6)

/-- A hold tag or till id, two bytes. -/
def fieldPair (f : List Byte) (offset : Nat) : BitVec 16 :=
  BitVec.ofNat 16 (fieldNat f offset 2)

/-- A slot, three bytes, 0..131,071. -/
def fieldSlot (f : List Byte) (offset : Nat) : Option Nat :=
  if fieldNat f offset 3 < Config.slots then some (fieldNat f offset 3) else none

/-- An amount in the range `low`..9,999,999. -/
def fieldAmount (f : List Byte) (offset low : Nat) : Option Nat :=
  if low ≤ fieldNat f offset 3 ∧ fieldNat f offset 3 ≤ Config.maxAmount then some (fieldNat f offset 3) else none

/-- A 28-bit match or mask in four bytes; a bit above bit 27 is refused (R8). -/
def fieldPattern (f : List Byte) (offset : Nat) : Option (BitVec 28) :=
  if fieldNat f offset 4 < 2 ^ 28 then some (BitVec.ofNat 28 (fieldNat f offset 4)) else none

/-- A card address at the start of the fields: flag byte, then the code, or the slot in the same six bytes (R21, R178). -/
def fieldAddress (f : List Byte) : Option Address :=
  match fieldNat f 0 1 with
  | 0 => some (.code (fieldCode f 1))
  | 1 => if fieldNat f 1 6 < Config.slots then some (.slot (fieldNat f 1 6)) else none
  | _ => none

/-- The slots of a range: start below 131,072 and end from the start to 131,071 (R108, R119). -/
def fieldRange (f : List Byte) : Option (Nat × Nat) :=
  if fieldNat f 0 3 ≤ fieldNat f 3 3 ∧ fieldNat f 3 3 < Config.slots then some (fieldNat f 0 3, fieldNat f 3 3) else none

/-- The card figure a criterion's field byte names, with its highest operand (R108). -/
def critFieldOf : Nat → Option (CritField × Nat)
  | 1 => some (.value, Config.maxAmount)
  | 2 => some (.available, Config.maxAmount)
  | 3 => some (.held, Config.maxAmount)
  | 4 => some (.usesToday, 255)
  | 5 => some (.lastTime, Config.maxTime)
  | _ => none

/-- A relation code (11.2). -/
def relationOf : Nat → Option Relation
  | 0 => some .eq
  | 1 => some .le
  | 2 => some .ge
  | _ => none

/-- A criterion: field, relation, operand of four bytes; after ANY neither relation nor operand is judged
(R108, R178). -/
def fieldCriterion (f : List Byte) (offset : Nat) : Option Criterion :=
  if fieldNat f offset 1 = 0 then some .any
  else
    match critFieldOf (fieldNat f offset 1), relationOf (fieldNat f (offset + 1) 1) with
    | some (field, high), some relation =>
      if fieldNat f (offset + 2) 4 ≤ high then some (.figure field relation (fieldNat f (offset + 2) 4)) else none
    | _, _ => none

/-- A PURGE till selector: 0 is ANY, with the till id bytes not judged, 1 a till id (R116, R178). -/
def fieldSelector (f : List Byte) : Option (Option TillId) :=
  match fieldNat f 1 1 with
  | 0 => some none
  | 1 => some (some (fieldPair f 2))
  | _ => none

/-- A trial value, 0..99,999 (R144). -/
def fieldTrialValue (f : List Byte) (offset : Nat) : Option Nat :=
  if fieldNat f offset 3 ≤ Config.trialCeiling then some (fieldNat f offset 3) else none

/-- A number in the range `low`..`high`. -/
def fieldIn (f : List Byte) (offset n low high : Nat) : Option Nat :=
  if low ≤ fieldNat f offset n ∧ fieldNat f offset n ≤ high then some (fieldNat f offset n) else none

/-- The writable fields of SET-SERIES (R8, 11.3). The ranges the card engine judges are not judged here. -/
def fieldSeries (f : List Byte) : Option SeriesFields :=
  (fieldBool f 1).bind fun enabled =>
  (fieldPattern f 2).bind fun matchBits =>
  (fieldPattern f 6).bind fun mask =>
  (fieldBool f 24).map fun partialAllowed =>
    { enabled := enabled
      matchBits := matchBits
      mask := mask
      base := fieldNat f 10 3
      count := fieldNat f 13 3
      ceiling := fieldNat f 16 3
      shortLifetime := fieldNat f 19 2
      longLifetime := fieldNat f 21 2
      useLimit := fieldNat f 23 1
      partialAllowed := partialAllowed
      renewLimit := fieldNat f 25 1 }

/-- EDIT-CARD: address, mask of two bits, new value in 24 bits, new uses in two bytes (R25, R178). -/
def fieldEdit (f : List Byte) : Option Request :=
  (fieldAddress f).bind fun address =>
    if (fieldNat f 7 1 = 1 ∨ fieldNat f 7 1 = 2 ∨ fieldNat f 7 1 = 3) ∧ fieldNat f 11 2 ≤ 255 then
      some (.editCard address (decide (fieldNat f 7 1 ≠ 2)) (decide (fieldNat f 7 1 ≠ 1)) (fieldNat f 8 3) (fieldNat f 11 2))
    else none

/-- The request whose field bytes, of the length its kind defines, are `f`; none when a content check refuses it (step 5
of R152). -/
def requestOf (k : Kind) (f : List Byte) : Option Request :=
  match k with
  | .idle => none
  | .probe => some (.probe (fieldCode f 0))
  | .reserve =>
    (fieldAmount f 8 1).bind fun amount =>
    (fieldBool f 11).bind fun partialFlag =>
    (fieldBool f 12).map fun longFlag => .reserve (fieldCode f 0) (fieldPair f 6) amount partialFlag longFlag
  | .renew => some (.renew (fieldPair f 0))
  | .capture => (fieldAmount f 2 0).map fun final => .capture (fieldPair f 0) final (fieldPair f 5)
  | .release => some (.release (fieldPair f 0))
  | .redeem =>
    (fieldAmount f 8 1).bind fun amount =>
    (fieldBool f 11).map fun partialFlag => .redeem (fieldCode f 0) (fieldPair f 6) amount partialFlag
  | .load => (fieldAmount f 8 1).map fun amount => .load (fieldCode f 0) (fieldPair f 6) amount
  | .collect => some .collect
  | .status => some .status
  | .portStatus => (fieldPort f 0).map .portStatus
  | .ident => some .ident
  | .setSeries => (fieldEntry f 0).bind fun entry => (fieldSeries f).map fun fields => .setSeries entry fields
  | .readSeries => (fieldEntry f 0).map .readSeries
  | .issue => (fieldAddress f).bind fun address => (fieldAmount f 7 0).map fun value => .issue address value
  | .block => (fieldAddress f).map .block
  | .unblock => (fieldAddress f).map .unblock
  | .retire => (fieldAddress f).map .retire
  | .editCard => fieldEdit f
  | .readCard => (fieldAddress f).map .readCard
  | .readHold => (fieldIn f 0 2 0 4095).map .readHold
  | .setTime => some (.setTime (fieldNat f 0 4))
  | .search =>
    (fieldRange f).bind fun range =>
    (fieldCriterion f 6).bind fun critA =>
    (fieldCriterion f 12).bind fun critB =>
    (fieldBool f 20).map fun skip => .search range.1 range.2 critA critB (fieldNat f 18 2) skip
  | .tally => (fieldRange f).map fun range => .tally range.1 range.2
  | .purge => (fieldPort f 0).bind fun owner => (fieldSelector f).map fun till => .purge owner till
  | .issueRun =>
    (fieldRange f).bind fun range =>
    (fieldIn f 6 1 1 8).bind fun stride =>
    (fieldAmount f 7 0).map fun value => .issueRun range.1 range.2 stride value
  | .cancelSweep => (fieldUnit f 0).map .cancelSweep
  | .closeDay => some .closeDay
  | .confirmClose => some .confirmClose
  | .dayReport => (fieldIn f 0 2 1 65535).map .dayReport
  | .accounts => some .accounts
  | .trialSet =>
    (fieldBool f 0).bind fun write =>
    (fieldTrialValue f 1).bind fun v0 =>
    (fieldTrialValue f 4).bind fun v1 =>
    (fieldTrialValue f 7).bind fun v2 =>
    (fieldTrialValue f 10).map fun v3 => .trialSet write #v[v0, v1, v2, v3]
  | .setPort =>
    (fieldPort f 0).bind fun target =>
    (fieldRole f 1).bind fun role =>
    (fieldMode f 2).map fun mode => .setPort target role mode
  | .setTiming =>
    (fieldPort f 0).bind fun target =>
    (fieldRecovery f 2).bind fun recovery =>
    (fieldIn f 3 1 1 255).bind fun window =>
    (fieldBase f 4).map fun base => .setTiming target (fieldNat f 1 1) recovery window base (fieldNat f 5 3)
  | .resetPort => (fieldPort f 0).map .resetPort
  | .restorePort => (fieldPort f 0).map .restorePort

/-- Permission at arrival: of a PORT-STATUS from a TILL port, the port byte must be the port's own number
(step 4 of R152, R153; log 14). -/
def arrivalPermitted (role : Role) (p : PortId) (k : Kind) (f : List Byte) : Bool :=
  match k with
  | .portStatus => role == .office || fieldNat f 0 1 == p.val
  | _ => k.permitted role

/-- What a complete frame with a matching CRC is, by steps 1 to 5 of R152. -/
inductive Verdict where
  | goodIdle
  | refused (outcome : OutcomeCode)
  | request (r : Request)
  deriving DecidableEq, Repr

/-- Steps 2 to 5 of R152 for a kind byte and field bytes. -/
def judgeKind (role : Role) (p : PortId) (kindByte : Byte) (f : List Byte) : Verdict :=
  match kindOfByte kindByte with
  | none => .refused .badRequest
  | some k =>
    if f.length + 2 ≠ k.bodyLength then .refused .badRequest
    else if !arrivalPermitted role p k f then .refused .notPermitted
    else
      match requestOf k f with
      | none => .refused .badRequest
      | some r => .request r

/-- The tag byte of a body (11.1). -/
def bodyTag (body : List Byte) : Byte :=
  body.headD 0

/-- The kind byte of a body (11.1). -/
def bodyKind (body : List Byte) : Byte :=
  (body.drop 1).headD 0

/-- A body is that of a good IDLE frame: kind IDLE, length 2 (step 1 of R152). -/
def isIdleBody (body : List Byte) : Bool :=
  decide (body.length = 2) && decide (bodyKind body = 0x00)

/-- Steps 1 to 5 of R152 for a body. -/
def judge (role : Role) (p : PortId) (body : List Byte) : Verdict :=
  if isIdleBody body then .goodIdle else judgeKind role p (bodyKind body) (body.drop 2)

end Sys2Proof.Machine
end

