-- ==== Sys2Proof/Machine/Ops.lean ====
section
/-! DEFINITION. The shared operations: notices, movements and the close, port health and queues, holds, the port reset,
window expiry and time-outs, and the grant of a port's request. Each meaning is written over these. -/

namespace Sys2Proof.Machine

/-! ### Notices (R171) -/

/-- A notice joining a notice queue: at the tail unmarked, or in the youngest place, marked, when the queue is full
(R171). -/
def pushNotice (n : Notice) (q : List NoticeEntry) : List NoticeEntry :=
  if q.length < Config.noticePlaces then q ++ [⟨n, false⟩] else q.dropLast ++ [⟨n, true⟩]

/-- Queues a notice to a port, whatever its health, role and mode (R171). -/
def State.notify (s : State) (p : PortId) (n : Notice) : State :=
  s.modifyPort p fun port => { port with notices := pushNotice n port.notices }

/-! ### Movements and the close (chapter 7) -/

/-- Reports a movement of value on a REAL card: to the lifetime counters, and to the day set the close state selects
(R123, R125). -/
def Accounts.report (a : Accounts) (m : Movement) : Accounts :=
  match a.close with
  | .opened => { a with lifetime := a.lifetime.add m.figures, current := a.current.add m.figures }
  | .closing _ _ _ => { a with lifetime := a.lifetime.add m.figures, next := a.next.add m.figures }

/-- Reports a movement on the card a reference names; a movement on a trial card is not reported (R64, R123). -/
def State.report (s : State) (ref : CardRef) (m : Movement) : State :=
  match ref with
  | .real _ => { s with accounts := s.accounts.report m }
  | .trial _ => s

/-- The day sets and close state after a drop: next merged into current, next zero, OPEN (R130 steps 1 and 2). -/
def Accounts.merged (a : Accounts) : Accounts :=
  { a with current := a.current.add a.next, next := .zero, close := .opened }

/-- Drops the pending close, if there is one: the day sets merge, and a CLOSE-DROPPED notice goes to the owner unless the
cause is RESET_N (no cause) (R130). -/
def State.dropClose (s : State) (cause : Option DropCause) : State :=
  match s.accounts.close with
  | .opened => s
  | .closing owner _ _ =>
    match cause with
    | none => { s with accounts := s.accounts.merged }
    | some c => { s with accounts := s.accounts.merged }.notify owner (.closeDropped s.accounts.day c)

/-- Drops the pending close when the port owns it (R131). -/
def State.dropCloseOf (s : State) (p : PortId) (cause : DropCause) : State :=
  if s.accounts.close.owner? = some p then s.dropClose (some cause) else s

/-- What STATUS reads of the close follows a drop made outside the grants while a grant is in progress (R158). -/
def State.showDrop (before after : State) : State :=
  if before.accounts.close.owner?.isSome && after.accounts.close.owner?.isNone then
    { after with inFlight := after.inFlight.map fun f => { f with before := { f.before with close := none } } }
  else after

/-- The comparison of device time with the window deadline: at or after it, the close drops with cause WINDOW. It acts
outside the grants (R126, R132). -/
def State.windowCheck (s : State) : State :=
  match s.accounts.close with
  | .opened => s
  | .closing _ _ deadline => if deadline ≤ s.clock.time then s.showDrop (s.dropClose (some .window)) else s

/-- A second event: device time rises by one and saturates, and the window comparison follows it (R86, R89). -/
def State.secondEvent (s : State) : State :=
  (s.setTime (if s.clock.time < Config.maxTime then s.clock.time + 1 else s.clock.time)).windowCheck

/-! ### Port health (chapter 10) -/

/-- The answer of the port's request in flight will be discarded at its completion (R31). -/
def State.discardInFlight (s : State) (p : PortId) : State :=
  { s with inFlight := s.inFlight.map fun f => if f.port = p then { f with discarded := true } else f }

/-- Writes a port's error count outside OFF; a change of health state queues PORT-STATE to the port (R165, R170). -/
def State.setCount (s : State) (p : PortId) (count : Nat) (cause : HealthCause) : State :=
  let before := (s.port p).health
  let after := healthOfCount count
  let s1 := s.modifyPort p fun port => { port with errorCount := count, health := after }
  if before = after then s1 else s1.notify p (.portState p before after count cause)

/-- The PORT-STATE notices of an entry to OFF: to the port itself and to every other port whose role is OFFICE (R166
step 5, R170). -/
def State.notifyOff (s : State) (p : PortId) (n : Notice) : State :=
  (allPorts.filter fun q => q ≠ p && (s.port q).role == .office).foldl (fun t q => t.notify q n) (s.notify p n)

/-- A port enters OFF (R166). -/
def State.enterOff (s : State) (p : PortId) : State :=
  let before := (s.port p).health
  let s1 := s.modifyPort p fun port =>
    { port with errorCount := 255, health := .off, idleRun := 0, requests := [], answers := [] }
  let s2 := (s1.discardInFlight p).notifyOff p (.portState p before .off 255 .errors)
  s2.showDrop (s2.dropCloseOf p .portOff)

/-- An increment of a port's error count would take it above 255, from a state below OFF (R166). -/
def State.wouldEnterOff (s : State) (p : PortId) (k : Nat) : Bool :=
  (s.port p).health != .off && decide (255 < (s.port p).errorCount + k)

/-- An increment of a port's error count (R164); in OFF the count stays (R167). -/
def State.raiseCount (s : State) (p : PortId) (k : Nat) : State :=
  if (s.port p).health = .off then s
  else if 255 < (s.port p).errorCount + k then s.enterOff p
  else s.setCount p ((s.port p).errorCount + k) .errors

/-- The good-frame decrement, not below 0 (R152, R164). -/
def State.goodFrame (s : State) (p : PortId) : State :=
  s.setCount p ((s.port p).errorCount - 1) .goodFrames

/-- A link error at a port: the count rises by 8 (R151, R164); in OFF the IDLE run count becomes 0 (R167). -/
def State.linkError (s : State) (p : PortId) : State :=
  if (s.port p).health = .off then s.modifyPort p fun port => { port with idleRun := 0 } else s.raiseCount p 8

/-- A port becomes ACTIVE with error count 0 and IDLE run count 0 (R167, R168); a change of state queues PORT-STATE. -/
def State.makeActive (s : State) (p : PortId) (cause : HealthCause) : State :=
  let before := (s.port p).health
  let s1 := s.modifyPort p fun port => { port with errorCount := 0, health := .active, idleRun := 0 }
  if before = .active then s1 else s1.notify p (.portState p before .active 0 cause)

/-! ### Queues of a port (R154, R155) -/

/-- An answer joins a port's answer queue. -/
def State.pushAnswer (s : State) (p : PortId) (tag : Byte) (a : Answer) : State :=
  s.modifyPort p fun port => { port with answers := port.answers ++ [⟨tag, a⟩] }

/-- The head of a port's request queue leaves it. -/
def State.popRequest (s : State) (p : PortId) : State :=
  s.modifyPort p fun port => { port with requests := port.requests.tail }

/-- A refusal at arrival: the answer takes a free place, if there is one and the port does not enter OFF, and the count
rises by 1 (R152, R166 step 2). -/
def State.refuseAtArrival (s : State) (p : PortId) (tag : Byte) (outcome : OutcomeCode) : State :=
  if s.wouldEnterOff p 1 || decide (s.freePlaces p = 0) then s.raiseCount p 1
  else (s.pushAnswer p tag (.plain outcome)).raiseCount p 1

/-- Intake: the request is taken, answered BUSY, or lost (R154, R155). -/
def State.intake (s : State) (p : PortId) (tag : Byte) (r : Request) : State :=
  if s.queueFull p then
    if s.freePlaces p = 0 then s else s.pushAnswer p tag (.plain .busy)
  else (s.modifyPort p fun port => { port with requests := port.requests ++ [⟨tag, r⟩] }).goodFrame p

/-! ### Port reset (R161) -/

/-- A port reset: request, answer and notice queues emptied, the port's pending close dropped with cause PORT-RESET, and
a frame in reception abandoned; the answer of a request in flight will be discarded. An answer in transmission is sent
to its end (R161). -/
def State.portReset (s : State) (p : PortId) : State :=
  let s1 := s.modifyPort p fun port =>
    { port with requests := [], answers := [], notices := [], receiver := .hunt, gap := 0 }
  (s1.discardInFlight p).dropCloseOf p .portReset

/-! ### Time-outs (R149, R151) -/

/-- A time-out at a port: the frame in reception is discarded, the link error counted, and under RESET a port reset
follows, which acts outside the grants (R126, R151). -/
def State.timeOut (s : State) (p : PortId) : State :=
  let s1 := (s.modifyPort p fun port => { port with receiver := .hunt, gap := 0 }).linkError p
  match (s.port p).recovery with
  | .drop => s1
  | .reset => s1.showDrop (s1.portReset p)

/-- The gap under way at a port is compared with the time-out setting as it stands; a setting of 0 disables the time-out
and gaps in HUNT are not measured (R149). -/
def State.gapCheck (s : State) (p : PortId) : State :=
  if (s.port p).receiver ≠ .hunt ∧ (s.port p).timeout ≠ 0 ∧ (s.port p).timeout < (s.port p).gap then s.timeOut p else s

/-! ### Holds (3.6) -/

/-- Device time plus a lifetime, saturating (R43). -/
def deadlineAfter (time lifetime : Nat) : Nat :=
  min (time + lifetime) Config.maxTime

/-- Enters an index into an expiry list after every hold whose deadline is at or before `d` and before the first whose
deadline is later (R43). -/
def enterExpiry (deadlineOf : Nat → Nat) (i d : Nat) : List Nat → List Nat
  | [] => [i]
  | j :: rest => if d < deadlineOf j then i :: j :: rest else j :: enterExpiry deadlineOf i d rest

/-- Changes the open-hold count of the governing entry of a REAL hold's slot; a TRIAL hold is not counted (R13). -/
def State.countHold (s : State) (ref : CardRef) (f : Nat → Nat) : State :=
  match ref with
  | .real slot =>
    match s.governing slot with
    | some e => s.modifyEntry e fun entry => { entry with openHolds := f entry.openHolds }
    | none => s
  | .trial _ => s

/-- The record of a hold as it opens, with the generation its index has (R45 step 2). -/
def openedHold (generation : BitVec 4) (ref : CardRef) (p : PortId) (till : TillId) (amount time deadline : Nat)
    (long : Bool) : Hold where
  isOpen := true
  generation := generation
  card := ref
  owner := p
  till := till
  amount := amount
  created := time
  deadline := deadline
  long := long
  renewals := 0

/-- The lifetime the long flag selects (R6, R45). -/
def lifetimeOf (r : CardRules) (long : Bool) : Nat :=
  if long then r.longLifetime else r.shortLifetime

/-- Opens hold `i`, the head of the free list: the record written, the card's chain and held, the expiry list and the
series count (R45). -/
def State.openHold (s : State) (i : Nat) (ref : CardRef) (p : PortId) (till : TillId) (amount lifetime : Nat)
    (long : Bool) : State :=
  let d := deadlineAfter s.clock.time lifetime
  let c := s.card ref
  let s1 := s.setCard ref { c with chain := c.chain ++ [i], held := c.held + amount }
  let s2 := s1.setHold i (openedHold (s.hold i).generation ref p till amount s.clock.time d long)
  { s2 with
    freeList := s.freeList.tail
    expiry := enterExpiry (fun j => (s.hold j).deadline) i d s.expiry }.countHold ref (· + 1)

/-- Frees hold `i`: off its card's chain and out of held, out of the expiry list, off the series count, the record FREE
with its generation raised, the index at the tail of the free list (R46). -/
def State.freeHold (s : State) (i : Nat) : State :=
  let h := s.hold i
  let c := s.card h.card
  let s1 := s.setCard h.card { c with chain := c.chain.erase i, held := c.held - h.amount }
  let s2 := s1.setHold i { h with isOpen := false, generation := h.generation + 1 }
  { s2 with
    freeList := s.freeList ++ [i]
    expiry := s.expiry.erase i }.countHold h.card (· - 1)

/-- Writes a card's last activity, at the device time of the grant (R19). -/
def State.noteActivity (s : State) (ref : CardRef) (p : PortId) (till : TillId) (kind : ActivityKind) : State :=
  s.setCard ref { s.card ref with last := some ⟨p, till, s.clock.time, kind⟩ }

/-- What a tag names at the grant (R47). -/
inductive TagMatch where
  | matched (index : Nat)
  | gone
  | notYours
  deriving DecidableEq, Repr

/-- Judges the tag a port presents against the record its index names (R47). -/
def State.matchTag (s : State) (p : PortId) (t : HoldTag) : TagMatch :=
  let h := s.hold (tagIndex t)
  if h.isOpen ∧ h.generation = tagGeneration t then
    if h.owner = p then .matched (tagIndex t) else .notYours
  else .gone

/-! ### Grants and port-local answers -/

/-- What comes at the end of a granted request, after its answer is formed and before its completion. -/
inductive Tail where
  /-- Nothing. -/
  | nothing
  /-- The window comparison follows the write of device time or the opening of a close (R132). -/
  | window
  /-- The gap under way at a port meets its new time-out setting (R149, R160). -/
  | gap (p : PortId)
  /-- The port reset a RESET-PORT performs (R161). -/
  | reset (p : PortId)
  deriving DecidableEq, Repr

/-- Does what comes at the end of a granted request. -/
def State.finish (s : State) : Tail → State
  | .nothing => s
  | .window => s.windowCheck
  | .gap p => s.gapCheck p
  | .reset p => s.portReset p

/-- What executing a request gives: the state, the answer, and what follows. -/
structure Done where
  state : State
  answer : Answer
  tail : Tail := .nothing

/-- A request refused or answered with nothing changed. -/
def State.only (s : State) (a : Answer) : Done :=
  { state := s, answer := a }

/-- The start of a port's grant: the position becomes the last granted, the request leaves the queue, and a pending close
of the port is dropped unless the request is CONFIRM-CLOSE (R30, R31, R32). -/
def State.startGrant (s : State) (p : PortId) (r : Request) : State :=
  let s1 := { s with lastGranted := (Claimant.port p).position }.popRequest p
  if r.kind = .confirmClose then s1 else s1.dropCloseOf p .strayRequest

/-- A port's grant whole: start, permission (R153), execution, the answer held until completion, and what follows. -/
def State.grantRequest (s : State) (p : PortId) (q : QueuedRequest) (work : State → Done) : State :=
  let s1 := s.startGrant p q.request
  let d := if q.request.permitted (s1.port p).role p then work s1 else s1.only (.plain .notPermitted)
  { d.state with inFlight := some ⟨p, q.tag, d.answer, false, s.view⟩ }.finish d.tail

/-- The engine's next grant when it is a port's request that `select` takes; otherwise that grant does not take place and
nothing changes (R30, R33). -/
def State.runGrant (s : State) (select : PortId → Request → Option (State → Done)) : State :=
  match s.nextRequest with
  | none => s
  | some (p, q) =>
    match select p q.request with
    | none => s
    | some work => s.grantRequest p q work

/-- A port answers the head of its request queue when that is a port-local request that `select` takes and no request of
the port is in flight; permission is judged again (R153, R156). The answer is formed without the request itself in the
queue (R158). -/
def State.answerLocal (s : State) (p : PortId) (select : Request → Option (State → State × Answer)) : State :=
  match (s.port p).requests with
  | [] => s
  | q :: _ =>
    match select q.request with
    | none => s
    | some work =>
      if s.inFlightAt p then s
      else
        let s1 := s.popRequest p
        let d := if q.request.permitted (s1.port p).role p then work s1 else (s1, .plain .notPermitted)
        d.1.pushAnswer p q.tag d.2

/-- A grant of the expiry unit or a sweep unit: its position becomes the last granted; it has no answer and completes with
its execution (R30, R31). -/
def State.grantTo (s : State) (c : Claimant) : State :=
  { s with lastGranted := c.position }

end Sys2Proof.Machine
end

