-- ==== Sys2Proof/Machine/Background.lean ====
section
/-! DEFINITION. Family: background grants. The lapse of the expiry unit, the steps of the sweep units and their ends, and
the completion of a port's grant. -/

namespace Sys2Proof.Machine

/-! ### Lapse -/

/-- The notice of a lapse: the tag as its till held it, the card, the amount and the till id (R95). -/
def State.expiredNotice (s : State) (i : Nat) : Notice :=
  let h := s.hold i
  .holdExpired (holdTag i h.generation) (s.noticeCard h.card) h.amount h.till

/-- The lapse of hold `i`: freed, last activity EXPIRY, HOLD-EXPIRED to the owner port (R94). -/
def State.lapse (s : State) (i : Nat) : State :=
  let h := s.hold i
  ((s.freeHold i).noteActivity h.card h.owner h.till .expiry).notify h.owner (s.expiredNotice i)

/-- LAPSE: a grant of the expiry unit lapses the head of the expiry list, which is due (R94, R96). -/
def execLapse (s : State) : Host.Outcome State Fault Refusal :=
  .next (match s.nextGrant with
    | some .expiry =>
      match s.expiry with
      | [] => s
      | i :: _ => (s.grantTo .expiry).lapse i
    | _ => s)

/-! ### Ends of sweeps -/

/-- The results a SWEEP-DONE carries for a TALLY, a PURGE, an ISSUE-RUN, or a SEARCH that reports a slot
(R111, R114, R117, R120). -/
def Sweep.report (w : Sweep) (slot : Option Nat) (time : Nat) : SweepReport :=
  match w.params with
  | .search _ _ _ _ _ _ => .search slot w.results.examined w.results.blockedSeen
  | .tally _ _ => .tally w.results.valueSum w.results.heldSum w.results.cardCount w.drift time
  | .purge _ _ => .purge w.results.freedCount w.results.freedAmount
  | .issueRun _ _ _ _ => .issueRun w.results.issuedCount w.results.skippedCount w.results.valueIssued

/-- The HOLDS-PURGED notice at the end of a PURGE that freed at least one hold (R117). -/
def State.notifyPurged (s : State) (w : Sweep) : State :=
  match w.params with
  | .purge owner _ =>
    if 0 < w.results.freedCount then s.notify owner (.holdsPurged w.results.freedCount w.results.freedAmount) else s
  | _ => s

/-- The end of a unit's sweep: the unit IDLE, HOLDS-PURGED first where it is due, then SWEEP-DONE to the starting port
(R104, R105, R117). -/
def State.endSweep (s : State) (u : UnitId) (reason : SweepReason) (slot : Option Nat) : State :=
  let w := s.sweep u
  ((s.modifySweep u fun x => { x with running := false }).notifyPurged w).notify w.startPort
    (.sweepDone u reason w.cursor (w.report slot s.clock.time))

/-! ### SEARCH steps -/

/-- The relation holds between a figure and an operand (R108). -/
def Relation.holds : Relation → Nat → Nat → Bool
  | .eq, figure, operand => figure == operand
  | .le, figure, operand => decide (figure ≤ operand)
  | .ge, figure, operand => decide (operand ≤ figure)

/-- The figure of a card a criterion names, absent for the time of an absent last activity (R108, R109). -/
def Card.figure (c : Card) (day : Nat) : CritField → Option Nat
  | .value => some c.value
  | .available => some c.available
  | .held => some c.held
  | .usesToday => some (c.todaysUses day)
  | .lastTime => c.last.map Activity.time

/-- A card meets a criterion (R109). -/
def Criterion.met (c : Card) (day : Nat) : Criterion → Bool
  | .any => true
  | .figure field relation operand =>
    match c.figure day field with
    | some amount => relation.holds amount operand
    | none => false

/-- The slots a SEARCH may examine: its limit, 0 standing for 65,536 (R108). -/
def searchLimit (limit : Nat) : Nat :=
  if limit = 0 then 65536 else limit

/-- What a SEARCH step finds at its slot (R110). -/
inductive Finding where
  | passed
  | passedBlocked
  | blockedEnd
  | hit
  deriving DecidableEq, Repr

/-- The finding at a card (R110). -/
def finding (c : Card) (day : Nat) (critA critB : Criterion) (skipBlocked : Bool) : Finding :=
  match c.state with
  | .blank | .retired => .passed
  | .blocked => if skipBlocked then .passedBlocked else .blockedEnd
  | .active => if critA.met c day && critB.met c day then .hit else .passed

/-- A SEARCH step: the slot counted and the cursor moved, then HIT, BLOCKED-END, MISS or LIMIT judged (R110, R111). -/
def State.searchStep (s : State) (u : UnitId) (stop : Nat) (critA critB : Criterion) (limit : Nat)
    (skipBlocked : Bool) : State :=
  let slot := (s.sweep u).cursor
  let found := finding (s.slotCard slot) s.accounts.day critA critB skipBlocked
  let s1 := s.modifySweep u fun w =>
    { w with
      cursor := slot + 1
      results :=
        { w.results with
          examined := w.results.examined + 1
          blockedSeen := w.results.blockedSeen || found == .passedBlocked } }
  match found with
  | .hit => s1.endSweep u .hit (some slot)
  | .blockedEnd => s1.endSweep u .blockedEnd (some slot)
  | .passed | .passedBlocked =>
    if slot = stop then s1.endSweep u .miss none
    else if searchLimit limit ≤ (s1.sweep u).results.examined then s1.endSweep u .limit (some (slot + 1))
    else s1

/-- SEARCH_STEP: a grant of a unit that runs a SEARCH (R104, R110). -/
def execSearchStep (s : State) : Host.Outcome State Fault Refusal :=
  .next (match s.nextSweep with
    | none => s
    | some u =>
      match (s.sweep u).params with
      | .search _ stop critA critB limit skip => (s.grantTo (.sweep u)).searchStep u stop critA critB limit skip
      | _ => s)

/-! ### TALLY steps -/

/-- Whether a card counts in a TALLY: 1 when issued, 0 otherwise (R112). -/
def Card.tallyCount (c : Card) : Nat :=
  match c.state with
  | .active | .blocked => 1
  | .blank | .retired => 0

/-- A TALLY step: the slot's contribution added to the sums, the cursor moved, END at the end slot (R112, R114). -/
def State.tallyStep (s : State) (u : UnitId) (stop : Nat) : State :=
  let slot := (s.sweep u).cursor
  let c := s.slotCard slot
  let s1 := s.modifySweep u fun w =>
    { w with
      cursor := slot + 1
      results :=
        { w.results with
          valueSum := w.results.valueSum + c.contribution.value
          heldSum := w.results.heldSum + c.contribution.held
          cardCount := w.results.cardCount + c.tallyCount } }
  if slot = stop then s1.endSweep u .done none else s1

/-- TALLY_STEP: a grant of a unit that runs a TALLY (R104, R112). -/
def execTallyStep (s : State) : Host.Outcome State Fault Refusal :=
  .next (match s.nextSweep with
    | none => s
    | some u =>
      match (s.sweep u).params with
      | .tally _ stop => (s.grantTo (.sweep u)).tallyStep u stop
      | _ => s)

/-! ### PURGE steps -/

/-- A hold record matches a PURGE: OPEN, of its owner port, and of its till where one is given (R116). -/
def Hold.matchesPurge (h : Hold) (owner : PortId) (till : Option TillId) : Bool :=
  h.isOpen && h.owner == owner && (till.isNone || till == some h.till)

/-- A PURGE step: a matching hold freed as a release and counted, the cursor moved, END after index 4,095 (R116, R117). -/
def State.purgeStep (s : State) (u : UnitId) (owner : PortId) (till : Option TillId) : State :=
  let i := (s.sweep u).cursor
  let h := s.hold i
  let s1 :=
    if h.matchesPurge owner till then
      ((s.freeHold i).noteActivity h.card h.owner h.till .release).modifySweep u fun w =>
        { w with
          results :=
            { w.results with
              freedCount := w.results.freedCount + 1
              freedAmount := w.results.freedAmount + BitVec.ofNat 64 h.amount } }
    else s
  let s2 := s1.modifySweep u fun w => { w with cursor := i + 1 }
  if Config.holdRecords ≤ i + 1 then s2.endSweep u .done none else s2

/-- PURGE_STEP: a grant of a unit that runs a PURGE (R104, R116). -/
def execPurgeStep (s : State) : Host.Outcome State Fault Refusal :=
  .next (match s.nextSweep with
    | none => s
    | some u =>
      match (s.sweep u).params with
      | .purge owner till => (s.grantTo (.sweep u)).purgeStep u owner till
      | _ => s)

/-! ### ISSUE-RUN steps -/

/-- Issues a BLANK slot: ACTIVE with the issue value, the issue reported (R22, R120). -/
def State.issueSlot (s : State) (slot value : Nat) : State :=
  (s.setSlotCard slot { s.slotCard slot with state := .active, value := value }).report (.real slot) (.issue value)

/-- An ISSUE-RUN step: a BLANK slot issued, any other skipped, the cursor moved by the stride, END where the next slot
would lie beyond the end slot (R120). -/
def State.issueRunStep (s : State) (u : UnitId) (stop stride value : Nat) : State :=
  let slot := (s.sweep u).cursor
  let s1 :=
    if (s.slotCard slot).state = .blank then
      (s.issueSlot slot value).modifySweep u fun w =>
        { w with
          results :=
            { w.results with
              issuedCount := w.results.issuedCount + 1
              valueIssued := w.results.valueIssued + value } }
    else s.modifySweep u fun w => { w with results := { w.results with skippedCount := w.results.skippedCount + 1 } }
  let s2 := s1.modifySweep u fun w => { w with cursor := slot + stride }
  if stop < slot + stride then s2.endSweep u .done none else s2

/-- ISSUE_RUN_STEP: a grant of a unit that runs an ISSUE-RUN (R104, R120). -/
def execIssueRunStep (s : State) : Host.Outcome State Fault Refusal :=
  .next (match s.nextSweep with
    | none => s
    | some u =>
      match (s.sweep u).params with
      | .issueRun _ stop stride value => (s.grantTo (.sweep u)).issueRunStep u stop stride value
      | _ => s)

/-! ### Completion -/

/-- GRANT_COMPLETION: the answer of the grant in progress takes its promised place, or is discarded, and the engine is
free (R31, R154). With no grant in progress nothing completes. -/
def execGrantCompletion (s : State) : Host.Outcome State Fault Refusal :=
  .next (match s.inFlight with
    | none => s
    | some f =>
      if f.discarded then { s with inFlight := none }
      else { s with inFlight := none }.pushAnswer f.port f.tag f.answer)

end Sys2Proof.Machine
end

