-- ==== Sys2Proof/Machine/Board.lean ====
section
/-! DEFINITION. Family: the board. Power-on, RESET_N, the second events and the window comparison. -/

namespace Sys2Proof.Machine

/-- POWER_ON: every piece of state at its starting value (R14, R34, R60, R92, R101, R122, R138, R148, R163, R176), the
straps sampled (R177). The command queue, the model's own, is kept. -/
def execPowerOn (rate1 rate0 : Bool) (s : State) : Host.Outcome State Fault Refusal :=
  .next { State.reset with lineRate := .ofStraps rate1 rate0, pending := s.pending }

/-- A hold record through the reset line: an OPEN one becomes FREE with its generation raised, its other fields kept
(R61). -/
def Hold.afterReset (h : Hold) : Hold :=
  if h.isOpen then { h with isOpen := false, generation := h.generation + 1 } else h

/-- A card record through the reset line: held 0 and chain empty, the rest kept (R35). -/
def Card.afterReset (c : Card) : Card :=
  { c with held := 0, chain := [] }

/-- A trial card through the reset line: freed like a card record, and its value its trial base value (R148). -/
def Card.trialAfterReset (base : Nat) (c : Card) : Card :=
  { c with value := base, held := 0, chain := [] }

/-- A port through the reset line: the power-on values, with role, time-out setting and recovery choice kept (R163). -/
def Port.afterReset (port : Port) : Port :=
  { Port.start port.role with timeout := port.timeout, recovery := port.recovery }

/-- The indices of the OPEN holds, in the order of the table, which is increasing (R61). -/
def State.openIndices (s : State) : List Nat :=
  (s.holds.filter fun e => e.2.isOpen).map Prod.fst

/-- The state an assertion of RESET_N leaves (R15, R35, R61, R92, R101, R122, R139, R148, R163, R176). The clock, the line
rate, the series fields, card values, trial base values and accounts counters are kept; a pending close is dropped
without a notice; a grant in progress completes with its answer discarded (log 15). -/
def State.resetLine (s : State) : State :=
  let s1 := s.dropClose none
  { s1 with
    resetLow := true
    series := mapVec (fun e => { e with openHolds := 0 }) s.series
    cards := Table.mapRecords Card.blank Card.afterReset s.cards
    holds := Table.mapRecords Hold.fresh Hold.afterReset s.holds
    freeList := s.freeList ++ s.openIndices
    expiry := []
    trialCards :=
      #v[s.trialCards[0].trialAfterReset s.trialBases[0], s.trialCards[1].trialAfterReset s.trialBases[1],
        s.trialCards[2].trialAfterReset s.trialBases[2], s.trialCards[3].trialAfterReset s.trialBases[3]]
    lastGranted := 8
    inFlight := none
    sweeps := mapVec (fun w => { w with running := false }) s.sweeps
    ports := mapVec Port.afterReset s.ports }

/-- RESET_N_ASSERT: RESET_N falls (R35, R163). Held low already, it cannot fall, and nothing changes (log 8). -/
def execResetNAssert (s : State) : Host.Outcome State Fault Refusal :=
  .next (if s.resetLow then s else s.resetLine)

/-- RESET_N_RELEASE: RESET_N rises; the straps are sampled (R177) and each receiver starts in HUNT, where the assertion
left it (R163). Not held low, it cannot rise, and nothing changes (log 8). -/
def execResetNRelease (rate1 rate0 : Bool) (s : State) : Host.Outcome State Fault Refusal :=
  .next (if s.resetLow then
    { s with
      resetLow := false
      lineRate := .ofStraps rate1 rate0
      ports := mapVec (fun port => { port with receiver := .hunt, gap := 0 }) s.ports }
  else s)

/-- TICK_SECOND: a rising edge of TICK, one second event while TICK is selected and not counted otherwise (R87, R88). -/
def execTickSecond (s : State) : Host.Outcome State Fault Refusal :=
  .next (match s.clock.base with
    | .tick => s.secondEvent
    | .divided => s)

/-- The divider starts again from 0 (R88). -/
def State.restartDivider (s : State) : State :=
  { s with clock := { s.clock with divider := 0 } }

/-- DIVIDER_SECOND: the REFCLK edges that bring the divider to the divisor, the last of them a second event with which the
divider starts again from 0 (R88; log 4). While TICK is selected REFCLK is not counted (R87). -/
def execDividerSecond (s : State) : Host.Outcome State Fault Refusal :=
  .next (match s.clock.base with
    | .tick => s
    | .divided => s.restartDivider.secondEvent)

/-- One rising edge of REFCLK: counted while the divided clock is selected, a second event when the divider has counted as
many edges as the divisor (R88; what a step does when no command waits, log 3). -/
def State.refclkEdge (s : State) : State :=
  match s.clock.base with
  | .tick => s
  | .divided =>
    if s.clock.divisor ≤ s.clock.divider + 1 then s.restartDivider.secondEvent
    else { s with clock := { s.clock with divider := s.clock.divider + 1 } }

/-- WINDOW_EXPIRY: at or after the window deadline a pending close is dropped with cause WINDOW (R132; log 5). -/
def execWindowExpiry (s : State) : Host.Outcome State Fault Refusal :=
  .next s.windowCheck

end Sys2Proof.Machine
end

