-- ==== Sys2Proof/Machine/Day.lean ====
section
/-! DEFINITION. Family: the business day and device time. SET-TIME, CLOSE-DAY, CONFIRM-CLOSE, DAY-REPORT and ACCOUNTS. -/

namespace Sys2Proof.Machine

/-- SET-TIME: device time written, the divider restarted; the window comparison follows the write (R90, R91, R132). -/
def writeTime (t : Nat) (s : State) : Done where
  state := { s with clock := { s.clock with time := t, divider := 0 } }
  answer := .timeSet s.clock.time t
  tail := .window

/-- SET_TIME: the engine grants the SET-TIME at the head of a port's queue (R90). -/
def execSetTime (s : State) : Host.Outcome State Fault Refusal :=
  .next (s.runGrant fun _ r =>
    match r with
    | .setTime t => some (writeTime t)
    | _ => none)

/-- CLOSE-DAY: opens a close over the current set, or CLOSE-BUSY (R127). At the top of device time the window expires at
the grant, after the answer is formed (R132). -/
def openClose (p : PortId) (s : State) : Done :=
  match s.accounts.close with
  | .closing owner _ _ => s.only (.closeBusy owner)
  | .opened =>
    let d := deadlineAfter s.clock.time s.accounts.window
    { state := { s with accounts := { s.accounts with close := .closing p s.accounts.current d } }
      answer := .closeReady s.accounts.day s.accounts.current d
      tail := .window }

/-- CLOSE_DAY: the engine grants the CLOSE-DAY at the head of a port's queue (R127). -/
def execCloseDay (s : State) : Host.Outcome State Fault Refusal :=
  .next (s.runGrant fun p r =>
    match r with
    | .closeDay => some (openClose p)
    | _ => none)

/-- The closed-day list with a new record: it replaces a newest record of day 65,535, else it joins at the newest end and
the oldest of nine leaves (R129 step 2). -/
def fileDay (days : List ClosedDay) (r : ClosedDay) : List ClosedDay :=
  if days.getLast?.map ClosedDay.day = some Config.maxDay then days.dropLast ++ [r]
  else if Config.closedDayPlaces < (days ++ [r]).length then (days ++ [r]).tail
  else days ++ [r]

/-- The day number after a confirmed close (R129 step 3). -/
def nextDay (day : Nat) : Nat :=
  if day = Config.maxDay then Config.maxDay else day + 1

/-- The accounts block after a confirmed close (R129). -/
def Accounts.confirmed (a : Accounts) (p : PortId) (frozen : Figures) (time : Nat) : Accounts :=
  { a with
    closedDays := fileDay a.closedDays ⟨a.day, frozen, p, time⟩
    day := nextDay a.day
    current := a.next
    next := .zero
    close := .opened }

/-- CONFIRM-CLOSE: from the owner the close is confirmed; otherwise NO-CLOSE (R128). -/
def confirmPending (p : PortId) (s : State) : Done :=
  match s.accounts.close with
  | .opened => s.only (.plain .noClose)
  | .closing owner frozen _ =>
    if owner = p then
      { s with accounts := s.accounts.confirmed p frozen s.clock.time }.only
        (.closed s.accounts.day (nextDay s.accounts.day))
    else s.only (.plain .noClose)

/-- CONFIRM_CLOSE: the engine grants the CONFIRM-CLOSE at the head of a port's queue (R128). -/
def execConfirmClose (s : State) : Host.Outcome State Fault Refusal :=
  .next (s.runGrant fun p r =>
    match r with
    | .confirmClose => some (confirmPending p)
    | _ => none)

/-- DAY-REPORT: the record of a closed day, or NOT-KEPT with the bounds of the list (R135). -/
def reportDay (day : Nat) (s : State) : Done :=
  match s.accounts.closedDays.find? fun r => r.day == day with
  | some r => s.only (.dayRecord r)
  | none =>
    s.only (.notKept ((s.accounts.closedDays.head?.map ClosedDay.day).getD 0)
      ((s.accounts.closedDays.getLast?.map ClosedDay.day).getD 0))

/-- DAY_REPORT: the engine grants the DAY-REPORT at the head of a port's queue (R135). -/
def execDayReport (s : State) : Host.Outcome State Fault Refusal :=
  .next (s.runGrant fun _ r =>
    match r with
    | .dayReport day => some (reportDay day)
    | _ => none)

/-- ACCOUNTS: the counters, both day sets, the close, the day number and the length of the closed-day list (R136). -/
def readAccounts (s : State) : Done :=
  s.only (.accounts s.accounts.lifetime s.accounts.current s.accounts.next s.accounts.day s.accounts.close
    s.accounts.closedDays.length)

/-- ACCOUNTS: the engine grants the ACCOUNTS at the head of a port's queue (R136). -/
def execAccounts (s : State) : Host.Outcome State Fault Refusal :=
  .next (s.runGrant fun _ r =>
    match r with
    | .accounts => some readAccounts
    | _ => none)

end Sys2Proof.Machine
end

