-- ==== Sys2Proof/Machine/Line.lean ====
section
/-! DEFINITION. Family: the line of a port. The receiver's bytes, the judgement of a frame, time-outs, and the
transmitter. -/

namespace Sys2Proof.Machine

/-- A frame with a matching CRC at a port that is OFF: a good IDLE frame raises the IDLE run count and the 64th recovers
the port; any other frame sets the run back to 0 (R167). -/
def State.frameInOff (s : State) (p : PortId) (body : List Byte) : State :=
  if isIdleBody body then
    if Config.idleRunGoal ≤ (s.port p).idleRun + 1 then s.makeActive p .idleRecovery
    else s.modifyPort p fun port => { port with idleRun := port.idleRun + 1 }
  else s.modifyPort p fun port => { port with idleRun := 0 }

/-- A frame with a matching CRC at a port below OFF: the checks of R152 in their order. -/
def State.frameJudged (s : State) (p : PortId) (body : List Byte) : State :=
  match judge (s.port p).role p body with
  | .goodIdle => s.goodFrame p
  | .refused outcome => s.refuseAtArrival p (bodyTag body) outcome
  | .request r => s.intake p (bodyTag body) r

/-- A complete frame: the CRC, then the checks against the port's state as it stands (R149, R150, R151). -/
def State.frameComplete (s : State) (p : PortId) (body : List Byte) (high low : Byte) : State :=
  if high = highByte (frameCrc body) ∧ low = lowByte (frameCrc body) then
    if (s.port p).health = .off then s.frameInOff p body else s.frameJudged p body
  else s.linkError p

/-- The receiver moves to a stage; a new gap begins (R149). -/
def State.receiverTo (s : State) (p : PortId) (r : Receiver) : State :=
  s.modifyPort p fun port => { port with receiver := r, gap := 0 }

/-- A byte at a port's receiver, by the stage it stands in (R149). While RESET_N is low every byte is discarded (R163). -/
def State.receiveByte (s : State) (p : PortId) (b : Byte) : State :=
  if s.resetLow then s
  else
    match (s.port p).receiver with
    | .hunt => if b = Config.startByte then s.receiverTo p .length else s
    | .length =>
      if 2 ≤ b.toNat ∧ b.toNat ≤ 60 then s.receiverTo p (.body b.toNat []) else (s.receiverTo p .hunt).linkError p
    | .body n got =>
      if n ≤ got.length + 1 then s.receiverTo p (.check (got ++ [b]) none) else s.receiverTo p (.body n (got ++ [b]))
    | .check body none => s.receiverTo p (.check body (some b))
    | .check body (some high) => (s.receiverTo p .hunt).frameComplete p body high b

/-- FRAME_RECEIVED: the byte that completes a frame (R152); the receiver's stage decides what the byte is (log 2). -/
def execFrameReceived (p : PortId) (b : Byte) (s : State) : Host.Outcome State Fault Refusal :=
  .next (s.receiveByte p b)

/-- IDLE: the byte that completes a good IDLE frame (R152, R167); the receiver's stage decides (log 2). -/
def execIdle (p : PortId) (b : Byte) (s : State) : Host.Outcome State Fault Refusal :=
  .next (s.receiveByte p b)

/-- BAD_LENGTH: a length byte outside 2..60 (R149, R151); the receiver's stage decides (log 2). -/
def execBadLength (p : PortId) (b : Byte) (s : State) : Host.Outcome State Fault Refusal :=
  .next (s.receiveByte p b)

/-- IDLE_RECOVERY: the byte that completes the 64th good IDLE frame in OFF (R167); the receiver's stage decides (log 2). -/
def execIdleRecovery (p : PortId) (b : Byte) (s : State) : Host.Outcome State Fault Refusal :=
  .next (s.receiveByte p b)

/-- BYTE_RECEIVED: a byte that neither completes nor breaks a frame (R149); the receiver's stage decides (log 2). -/
def execByteReceived (p : PortId) (b : Byte) (s : State) : Host.Outcome State Fault Refusal :=
  .next (s.receiveByte p b)

/-- LINK_TIMEOUT: the gap under way at a port has come to `gap` units of 100 µs and is compared with the time-out setting
(R149, R151; log 6). Gaps in HUNT are not measured. -/
def execLinkTimeout (p : PortId) (gap : Nat) (s : State) : Host.Outcome State Fault Refusal :=
  .next (if s.resetLow ∨ (s.port p).receiver = .hunt then s
    else (s.modifyPort p fun port => { port with gap := max port.gap gap }).gapCheck p)

/-- ANSWER_TRANSMIT_START: an idle transmitter begins the oldest answer, which leaves the queue and frees its place
(R156). -/
def execAnswerTransmitStart (p : PortId) (s : State) : Host.Outcome State Fault Refusal :=
  .next (match (s.port p).sending, (s.port p).answers with
    | none, a :: rest => s.modifyPort p fun port => { port with sending := some a.bytes, answers := rest }
    | _, _ => s)

/-- ANSWER_SENT: the last CRC byte of the answer has been sent and the transmitter is idle (R156, R177). -/
def execAnswerSent (p : PortId) (s : State) : Host.Outcome State Fault Refusal :=
  .next (s.modifyPort p fun port => { port with sending := none })

end Sys2Proof.Machine
end

