-- ==== Sys2Proof/Machine/Office.lean ====
section
/-! DEFINITION. Family: office requests on cards and holds. ISSUE, BLOCK, UNBLOCK, RETIRE, EDIT-CARD, READ-CARD and
READ-HOLD. -/

namespace Sys2Proof.Machine

/-- ISSUE: addressing, NOT-BLANK, BAD-FIELD, then the card issued and the issue reported (R22). -/
def issueCard (address : Address) (value : Nat) (s : State) : Done :=
  match s.locate address with
  | none => s.only (.plain .unknownCard)
  | some (slot, e) =>
    if (s.slotCard slot).state ≠ .blank then s.only (.plain .notBlank)
    else if (s.entry e).fields.ceiling < value then s.only (.plain .badField)
    else (s.issueSlot slot value).only (.issued slot value)

/-- ISSUE: the engine grants the ISSUE at the head of a port's queue (R22). -/
def execIssue (s : State) : Host.Outcome State Fault Refusal :=
  .next (s.runGrant fun _ r =>
    match r with
    | .issue address value => some (issueCard address value)
    | _ => none)

/-- A card moved from one state to another, WRONG-STATE from any other (R23). -/
def moveState (address : Address) (before after : CardState) (s : State) : Done :=
  match s.locate address with
  | none => s.only (.plain .unknownCard)
  | some (slot, _) =>
    if (s.slotCard slot).state ≠ before then s.only (.plain .wrongState)
    else (s.setSlotCard slot { s.slotCard slot with state := after }).only (.stateSet slot after)

/-- BLOCK: the engine grants the BLOCK at the head of a port's queue; an ACTIVE card becomes BLOCKED (R23). -/
def execBlock (s : State) : Host.Outcome State Fault Refusal :=
  .next (s.runGrant fun _ r =>
    match r with
    | .block address => some (moveState address .active .blocked)
    | _ => none)

/-- UNBLOCK: the engine grants the UNBLOCK at the head of a port's queue; a BLOCKED card becomes ACTIVE (R23). -/
def execUnblock (s : State) : Host.Outcome State Fault Refusal :=
  .next (s.runGrant fun _ r =>
    match r with
    | .unblock address => some (moveState address .blocked .active)
    | _ => none)

/-- The card is issued: ACTIVE or BLOCKED (R24, R25). -/
def CardState.isIssued : CardState → Bool
  | .active | .blocked => true
  | .blank | .retired => false

/-- RETIRE: addressing, WRONG-STATE, HAS-HOLDS, then the value written off and the card RETIRED (R24). -/
def retireCard (address : Address) (s : State) : Done :=
  match s.locate address with
  | none => s.only (.plain .unknownCard)
  | some (slot, _) =>
    let c := s.slotCard slot
    if !c.state.isIssued then s.only (.plain .wrongState)
    else if c.chain ≠ [] then s.only (.hasHolds c.chain.length)
    else
      ((s.setSlotCard slot { c with state := .retired, value := 0 }).report (.real slot) (.writeOff c.value)).only
        (.retired slot c.value)

/-- RETIRE: the engine grants the RETIRE at the head of a port's queue (R24). -/
def execRetire (s : State) : Host.Outcome State Fault Refusal :=
  .next (s.runGrant fun _ r =>
    match r with
    | .retire address => some (retireCard address)
    | _ => none)

/-- The card after an accepted EDIT-CARD: the fields the mask selects written (R25). -/
def Card.edited (c : Card) (editValue editUses : Bool) (newValue newUses day : Nat) : Card :=
  { c with
    value := if editValue then newValue else c.value
    useDay := if editUses then day else c.useDay
    uses := if editUses then newUses else c.uses }

/-- EDIT-CARD: addressing, WRONG-STATE, BAD-FIELD, then the selected fields written and a change of value reported as an
adjustment (R25). -/
def editCardFields (address : Address) (editValue editUses : Bool) (newValue newUses : Nat) (s : State) : Done :=
  match s.locate address with
  | none => s.only (.plain .unknownCard)
  | some (slot, _) =>
    let c := s.slotCard slot
    if !c.state.isIssued then s.only (.plain .wrongState)
    else if editValue = true ∧ (Config.maxAmount < newValue ∨ newValue < c.held) then s.only (.plain .badField)
    else
      let c1 := c.edited editValue editUses newValue newUses s.accounts.day
      let s1 := s.setSlotCard slot c1
      let s2 := if editValue then s1.report (.real slot) (.adjust c.value newValue) else s1
      s2.only (.edited slot c1.value c1.held c1.useDay c1.uses)

/-- EDIT_CARD: the engine grants the EDIT-CARD at the head of a port's queue (R25). -/
def execEditCard (s : State) : Host.Outcome State Fault Refusal :=
  .next (s.runGrant fun _ r =>
    match r with
    | .editCard address editValue editUses newValue newUses =>
      some (editCardFields address editValue editUses newValue newUses)
    | _ => none)

/-- READ-CARD: the whole record with its hold tags, oldest first; nothing changes (R26). -/
def readCardRecord (address : Address) (s : State) : Done :=
  match s.locateAny address with
  | none => s.only (.plain .unknownCard)
  | some slot =>
    let c := s.slotCard slot
    s.only (.cardRecord slot c c.available (c.todaysUses s.accounts.day)
      (c.chain.map fun i => holdTag i (s.hold i).generation))

/-- READ_CARD: the engine grants the READ-CARD at the head of a port's queue (R26). -/
def execReadCard (s : State) : Host.Outcome State Fault Refusal :=
  .next (s.runGrant fun _ r =>
    match r with
    | .readCard address => some (readCardRecord address)
    | _ => none)

/-- The governing entry number a READ-HOLD reports: of a REAL record whose slot has one (R59). -/
def State.holdEntry (s : State) (h : Hold) : Option EntryId :=
  match h.card with
  | .real slot => s.governing slot
  | .trial _ => none

/-- READ_HOLD: the engine grants the READ-HOLD at the head of a port's queue; the record as it stands (R59). -/
def execReadHold (s : State) : Host.Outcome State Fault Refusal :=
  .next (s.runGrant fun _ r =>
    match r with
    | .readHold i => some fun s1 => s1.only (.holdRecord i (s1.hold i) (s1.holdEntry (s1.hold i)))
    | _ => none)

end Sys2Proof.Machine
end

