-- ==== Sys2Proof/Machine/PortLocal.lean ====
section
/-! DEFINITION. Family: requests a port answers itself. COLLECT, STATUS, PORT-STATUS and IDENT. -/

namespace Sys2Proof.Machine

/-- COLLECT at a port: the oldest notice leaves the queue, or NONE (R173). -/
def collectNotice (p : PortId) (s : State) : State × Answer :=
  match (s.port p).notices with
  | [] => (s, .plain .none)
  | e :: rest => (s.modifyPort p fun port => { port with notices := rest }, .notice e.notice e.overrun rest.length)

/-- COLLECT: answered by the port (R156, R173). -/
def execCollect (p : PortId) (s : State) : Host.Outcome State Fault Refusal :=
  .next (s.answerLocal p fun r =>
    match r with
    | .collect => some (collectNotice p)
    | _ => none)

/-- STATUS: state that changes within grants as the last completed grant left it, device time as it stands (R158). -/
def statusAnswer (s : State) : State × Answer :=
  (s, .status s.settledView.freeHolds s.settledView.sweeps s.settledView.close s.settledView.day s.clock.time)

/-- STATUS: answered by the port (R156, R158). -/
def execStatus (p : PortId) (s : State) : Host.Outcome State Fault Refusal :=
  .next (s.answerLocal p fun r =>
    match r with
    | .status => some statusAnswer
    | _ => none)

/-- The record of a port as it stands, with a given WAIT level (R158). -/
def State.portReport (s : State) (q : PortId) (wait : Bool) : PortReport where
  role := (s.port q).role
  mode := (s.port q).mode
  health := (s.port q).health
  errorCount := (s.port q).errorCount
  timeout := (s.port q).timeout
  recovery := (s.port q).recovery
  requests := (s.port q).requests.length
  answers := (s.port q).answers.length
  notices := (s.port q).notices.length
  wait := wait
  attn := s.attnLevel q
  idleRun := (s.port q).idleRun

/-- WAIT level of a port when its answer stands in its place: the request gone from the queue, its place still taken
(R154). -/
def State.waitAfterAnswer (s : State) (p : PortId) : Bool :=
  !s.resetLow &&
    (decide (Config.requestPlaces ≤ (s.port p).requests.length) || decide (s.freePlaces p ≤ 1))

/-- The WAIT level a PORT-STATUS of port `p` reports about `q`, read when the request has left the queue (`s`): of another
port the level as it stands; of its own port the level without the request, or with it, a free choice (log 10). `full`
says whether the queue was full with the request in it. -/
def State.reportedWait (s : State) (p q : PortId) (full : Bool) : Bool :=
  if q = p then (if Config.portStatusOwnWait then full else s.waitAfterAnswer p) else s.waitLevel q

/-- PORT-STATUS: the record of the named port; of its own port without the request and without the answer (R158). -/
def portStatusAnswer (p q : PortId) (full : Bool) (s : State) : State × Answer :=
  (s, .portRecord (s.portReport q (s.reportedWait p q full)))

/-- PORT_STATUS: answered by the port (R156, R158). -/
def execPortStatus (p : PortId) (s : State) : Host.Outcome State Fault Refusal :=
  .next (s.answerLocal p fun r =>
    match r with
    | .portStatus q => some (portStatusAnswer p q (s.waitLevel p))
    | _ => none)

/-- IDENT: vendor code, part code, revision and six capacities, the same at every asking (R157). -/
def identAnswer (s : State) : State × Answer :=
  (s, .identity)

/-- IDENT: answered by the port (R156, R157). -/
def execIdent (p : PortId) (s : State) : Host.Outcome State Fault Refusal :=
  .next (s.answerLocal p fun r =>
    match r with
    | .ident => some identAnswer
    | _ => none)

end Sys2Proof.Machine
end

