-- ==== Sys2Proof/Machine/Series.lean ====
section
/-! DEFINITION. Family: the series table. SET-SERIES and READ-SERIES. -/

namespace Sys2Proof.Machine

/-- The fields lie in the accepted ranges that the card engine judges (R2, R8 check 1). -/
def SeriesFields.inRange (f : SeriesFields) : Bool :=
  decide (f.base < Config.slots) && decide (1 ≤ f.count) && decide (f.count ≤ Config.slots)
    && decide (f.base + f.count ≤ Config.slots) && decide (1 ≤ f.ceiling) && decide (f.ceiling ≤ Config.maxAmount)
    && decide (30 ≤ f.shortLifetime) && decide (f.shortLifetime ≤ f.longLifetime) && decide (f.renewLimit ≤ 7)

/-- The five structural fields are the same (R10). -/
def SeriesFields.sameStructure (f g : SeriesFields) : Bool :=
  f.enabled == g.enabled && f.matchBits == g.matchBits && f.mask == g.mask && f.base == g.base && f.count == g.count

/-- The slot ranges of two entries share a slot (R9). -/
def SeriesFields.overlaps (f g : SeriesFields) : Bool :=
  decide (f.base < g.base + g.count) && decide (g.base < f.base + f.count)

/-- The written range overlaps that of another enabled entry (R9). -/
def State.overlapsOther (s : State) (e : EntryId) (f : SeriesFields) : Bool :=
  f.enabled && allEntries.any fun o => o != e && (s.entry o).fields.enabled && f.overlaps (s.entry o).fields

/-- SET-SERIES: BAD-FIELD, SERIES-IN-USE, OVERLAP, then the eleven fields written, the open-hold count left (R8 to R10). -/
def writeSeries (e : EntryId) (f : SeriesFields) (s : State) : Done :=
  if !f.inRange then s.only (.plain .badField)
  else if 0 < (s.entry e).openHolds ∧ !f.sameStructure (s.entry e).fields then s.only (.plain .seriesInUse)
  else if s.overlapsOther e f then s.only (.plain .overlap)
  else (s.modifyEntry e fun entry => { entry with fields := f }).only (.plain .done)

/-- SET_SERIES: the engine grants the SET-SERIES at the head of a port's queue (R8). -/
def execSetSeries (s : State) : Host.Outcome State Fault Refusal :=
  .next (s.runGrant fun _ r =>
    match r with
    | .setSeries e f => some (writeSeries e f)
    | _ => none)

/-- READ_SERIES: the engine grants the READ-SERIES at the head of a port's queue; the entry number and all twelve fields
(R12). -/
def execReadSeries (s : State) : Host.Outcome State Fault Refusal :=
  .next (s.runGrant fun _ r =>
    match r with
    | .readSeries e => some fun s1 => s1.only (.seriesRecord e (s1.entry e))
    | _ => none)

end Sys2Proof.Machine
end

