-- ==== Sys2Proof/Machine/Settings.lean ====
section
/-! DEFINITION. Family: settings. TRIAL-SET, SET-PORT, SET-TIMING, RESET-PORT and RESTORE-PORT. -/

namespace Sys2Proof.Machine

/-! ### TRIAL-SET -/

/-- No trial card has a hold (R144). -/
def State.trialIdle (s : State) : Bool :=
  s.trialCards.toList.all fun c => c.chain.isEmpty

/-- The trial cards with new values, everything else kept (R144). -/
def State.writeTrial (s : State) (values : Vector Nat 4) : State :=
  { s with
    trialCards :=
      #v[{ s.trialCards[0] with value := values[0] }, { s.trialCards[1] with value := values[1] },
        { s.trialCards[2] with value := values[2] }, { s.trialCards[3] with value := values[3] }]
    trialBases := values }

/-- TRIAL-SET: reads the trial cards; with the write flag and no holds writes values and base values; with holds
TRIAL-IN-USE (R144). -/
def setTrial (write : Bool) (values : Vector Nat 4) (s : State) : Done :=
  if write then
    if s.trialIdle then (s.writeTrial values).only (.trialCards (s.writeTrial values).trialCards)
    else s.only (.trialInUse s.trialCards)
  else s.only (.trialCards s.trialCards)

/-- TRIAL_SET: the engine grants the TRIAL-SET at the head of a port's queue (R144). -/
def execTrialSet (s : State) : Host.Outcome State Fault Refusal :=
  .next (s.runGrant fun _ r =>
    match r with
    | .trialSet write values => some (setTrial write values)
    | _ => none)

/-! ### SET-PORT -/

/-- A port other than the target has role OFFICE (R159). -/
def State.otherOffice (s : State) (target : PortId) : Bool :=
  allPorts.any fun q => q != target && (s.port q).role == .office

/-- The indices of a port's open TRIAL holds, in increasing order (R146). -/
def State.trialHoldsOf (s : State) (p : PortId) : List Nat :=
  (s.holds.filter fun e => e.2.isOpen && e.2.card.isTrial && e.2.owner == p).map Prod.fst

/-- A port that leaves TRIAL has its open TRIAL holds freed, in increasing index order, without notices (R146). -/
def State.leaveTrial (s : State) (p : PortId) : State :=
  (s.trialHoldsOf p).foldl State.freeHold s

/-- The effects of an accepted SET-PORT: role and mode written; TRIAL holds freed when the target leaves TRIAL; a pending
close of a target made TILL dropped with cause ROLE-CHANGE (R131, R145, R146, R159). -/
def State.writePort (s : State) (target : PortId) (role : Role) (mode : Mode) : State :=
  let s1 := if (s.port target).mode = .trial ∧ mode = .normal then s.leaveTrial target else s
  let s2 := s1.modifyPort target fun port => { port with role := role, mode := mode }
  match role with
  | .till => s2.dropCloseOf target .roleChange
  | .office => s2

/-- SET-PORT: BAD-FIELD, LAST-OFFICE, then the write (R159). -/
def setPortMode (target : PortId) (role : Role) (mode : Mode) (s : State) : Done :=
  if role = .office ∧ mode = .trial then s.only (.plain .badField)
  else if role = .till ∧ !s.otherOffice target then s.only (.plain .lastOffice)
  else (s.writePort target role mode).only (.portSet role mode)

/-- SET_PORT: the engine grants the SET-PORT at the head of a port's queue (R159). -/
def execSetPort (s : State) : Host.Outcome State Fault Refusal :=
  .next (s.runGrant fun _ r =>
    match r with
    | .setPort target role mode => some (setPortMode target role mode)
    | _ => none)

/-! ### SET-TIMING -/

/-- The effects of an accepted SET-TIMING: the target's time-out setting and recovery choice, the close window, the time
base and divisor with the divider restarted (R88, R160). -/
def State.writeTiming (s : State) (target : PortId) (timeout : Nat) (recovery : Recovery) (window : Nat)
    (base : TimeBase) (divisor : Nat) : State :=
  { s.modifyPort target fun port => { port with timeout := timeout, recovery := recovery } with
    accounts := { s.accounts with window := window }
    clock := { s.clock with base := base, divisor := divisor, divider := 0 } }

/-- SET-TIMING: BAD-FIELD for a divided clock with divisor 0, then the write; the gap under way at the target meets the
new setting at once (R88, R149, R160). -/
def setLineTiming (target : PortId) (timeout : Nat) (recovery : Recovery) (window : Nat) (base : TimeBase)
    (divisor : Nat) (s : State) : Done :=
  if base = .divided ∧ divisor = 0 then s.only (.plain .badField)
  else
    { state := s.writeTiming target timeout recovery window base divisor
      answer := .timingSet timeout recovery window base divisor
      tail := .gap target }

/-- SET_TIMING: the engine grants the SET-TIMING at the head of a port's queue (R160). -/
def execSetTiming (s : State) : Host.Outcome State Fault Refusal :=
  .next (s.runGrant fun _ r =>
    match r with
    | .setTiming target timeout recovery window base divisor =>
      some (setLineTiming target timeout recovery window base divisor)
    | _ => none)

/-! ### RESET-PORT and RESTORE-PORT -/

/-- RESET_PORT: the engine grants the RESET-PORT at the head of a port's queue: a port reset of the target, which falls
between the grant and its completion, answered DONE (R161). -/
def execResetPort (s : State) : Host.Outcome State Fault Refusal :=
  .next (s.runGrant fun _ r =>
    match r with
    | .resetPort target => some fun s1 => { state := s1, answer := .plain .done, tail := .reset target }
    | _ => none)

/-- RESTORE-PORT: the target ACTIVE with counts 0; PORT-STATE to it when it was not ACTIVE (R168). -/
def restoreTarget (target : PortId) (s : State) : Done :=
  (s.makeActive target .restore).only
    (.restored (s.port target).health (s.port target).errorCount .active 0)

/-- RESTORE_PORT: the engine grants the RESTORE-PORT at the head of a port's queue (R168). -/
def execRestorePort (s : State) : Host.Outcome State Fault Refusal :=
  .next (s.runGrant fun _ r =>
    match r with
    | .restorePort target => some (restoreTarget target)
    | _ => none)

end Sys2Proof.Machine
end

