-- ==== Sys2Proof/Machine/Sweeps.lean ====
section
/-! DEFINITION. Family: sweep requests. The four starts and CANCEL-SWEEP. -/

namespace Sys2Proof.Machine

/-- The lowest-numbered IDLE unit (R103). -/
def State.idleUnit (s : State) : Option UnitId :=
  if !(s.sweep 0).running then some 0 else if !(s.sweep 1).running then some 1 else none

/-- A unit as a start takes it: RUNNING, kind and parameters, starting port, cursor, everything else zero (R103). -/
def startedSweep (p : PortId) (params : SweepParams) : Sweep where
  running := true
  params := params
  startPort := p
  cursor := params.firstCursor
  results := .zero
  drift := .zero

/-- A sweep start: SWEEPS-BUSY, or the lowest-numbered IDLE unit taken (R103). -/
def startSweep (p : PortId) (params : SweepParams) (s : State) : Done :=
  match s.idleUnit with
  | none => s.only (.plain .sweepsBusy)
  | some u => (s.modifySweep u fun _ => startedSweep p params).only (.accepted u)

/-- SEARCH: the engine grants the SEARCH at the head of a port's queue (R103, R108). -/
def execSearch (s : State) : Host.Outcome State Fault Refusal :=
  .next (s.runGrant fun p r =>
    match r with
    | .search start stop critA critB limit skip => some (startSweep p (.search start stop critA critB limit skip))
    | _ => none)

/-- TALLY: the engine grants the TALLY at the head of a port's queue (R103, R112). -/
def execTally (s : State) : Host.Outcome State Fault Refusal :=
  .next (s.runGrant fun p r =>
    match r with
    | .tally start stop => some (startSweep p (.tally start stop))
    | _ => none)

/-- PURGE: the engine grants the PURGE at the head of a port's queue (R103, R116). -/
def execPurge (s : State) : Host.Outcome State Fault Refusal :=
  .next (s.runGrant fun p r =>
    match r with
    | .purge owner till => some (startSweep p (.purge owner till))
    | _ => none)

/-- The series checks of an ISSUE-RUN: its whole span in the range of the entry that governs its start slot, and its value
within that entry's ceiling (R119). -/
def State.runAllowed (s : State) (start stop value : Nat) : Bool :=
  match s.governing start with
  | none => false
  | some e => (s.entry e).fields.covers stop && decide (value ≤ (s.entry e).fields.ceiling)

/-- ISSUE-RUN start: BAD-FIELD first, then as every start (R103, R119). -/
def startIssueRun (p : PortId) (start stop stride value : Nat) (s : State) : Done :=
  if s.runAllowed start stop value then startSweep p (.issueRun start stop stride value) s
  else s.only (.plain .badField)

/-- ISSUE_RUN: the engine grants the ISSUE-RUN at the head of a port's queue (R103, R119). -/
def execIssueRun (s : State) : Host.Outcome State Fault Refusal :=
  .next (s.runGrant fun p r =>
    match r with
    | .issueRun start stop stride value => some (startIssueRun p start stop stride value)
    | _ => none)

/-- CANCEL-SWEEP: the running sweep ended at once with reason CANCELLED, or NOT-RUNNING (R106, R111, R117). -/
def cancelUnit (u : UnitId) (s : State) : Done :=
  if (s.sweep u).running then
    (s.endSweep u .cancelled (some (s.sweep u).cursor)).only (.cancelled u (s.sweep u).params.kind)
  else s.only (.plain .notRunning)

/-- CANCEL_SWEEP: the engine grants the CANCEL-SWEEP at the head of a port's queue (R106). -/
def execCancelSweep (s : State) : Host.Outcome State Fault Refusal :=
  .next (s.runGrant fun _ r =>
    match r with
    | .cancelSweep u => some (cancelUnit u)
    | _ => none)

end Sys2Proof.Machine
end

