-- ==== Sys2Proof/Machine/Till.lean ====
section
/-! DEFINITION. Family: grants of till requests. PROBE, RESERVE, RENEW, CAPTURE, RELEASE, REDEEM and LOAD. -/

namespace Sys2Proof.Machine

/-! ### PROBE -/

/-- PROBE: five figures of the card the code reaches, nothing changed (R66, R67). -/
def probeCard (p : PortId) (code : CardCode) (s : State) : Done :=
  match s.target p code with
  | none => s.only (.plain .unknownCard)
  | some t =>
    let c := s.card t.ref
    s.only (.probed t.ref.isTrial c.state c.value c.available c.chain.length
      (c.usesLeft t.rules.useLimit s.accounts.day))

/-- PROBE: the engine grants the PROBE at the head of a port's queue (R66). -/
def execProbe (s : State) : Host.Outcome State Fault Refusal :=
  .next (s.runGrant fun p r =>
    match r with
    | .probe code => some (probeCard p code)
    | _ => none)

/-! ### The checks RESERVE and REDEEM share -/

/-- The amount a RESERVE holds or a REDEEM takes, none for NO-FUNDS (R51, R76). -/
def amountFound (asked available : Nat) (honoured : Bool) : Option Nat :=
  if available = 0 then none
  else if asked ≤ available then some asked
  else if honoured then some available
  else none

/-- The refusal a card's state gives RESERVE, REDEEM and LOAD (R20, R50). -/
def CardState.refusal : CardState → Option OutcomeCode
  | .blank => some .notIssued
  | .active => none
  | .blocked => some .cardBlocked
  | .retired => some .cardRetired

/-- What the first five checks of RESERVE and REDEEM give: a refusal, or the card and the amount found (R50, R75). -/
inductive SaleCheck where
  | refused (a : Answer)
  | passed (t : Target) (amount : Nat)
  deriving DecidableEq, Repr

/-- The first five checks of RESERVE and REDEEM, in their order (R50, R51, R75). -/
def saleCheck (p : PortId) (code : CardCode) (asked : Nat) (partialFlag : Bool) (s : State) : SaleCheck :=
  if (s.port p).health = .muted then .refused (.plain .portMuted)
  else
    match s.target p code with
    | none => .refused (.plain .unknownCard)
    | some t =>
      let c := s.card t.ref
      match c.state.refusal with
      | some outcome => .refused (.plain outcome)
      | none =>
        if t.rules.useLimit ≠ 0 ∧ t.rules.useLimit ≤ c.todaysUses s.accounts.day then .refused (.plain .useLimit)
        else
          match amountFound asked c.available (partialFlag && t.rules.partialAllowed) with
          | none => .refused (.noFunds t.ref.isTrial c.available)
          | some amount => .passed t amount

/-! ### RESERVE -/

/-- The effects of an accepted RESERVE that takes index `i`: the hold opened, a use counted, last activity RESERVE
(R45, R52). -/
def State.reserveHold (s : State) (i : Nat) (p : PortId) (t : Target) (till : TillId) (amount : Nat) (long : Bool) :
    State :=
  let s1 := s.openHold i t.ref p till amount (lifetimeOf t.rules long) long
  (s1.setCard t.ref ((s1.card t.ref).countUse s.accounts.day)).noteActivity t.ref p till .reserve

/-- RESERVE: the seven checks in their order, then the hold (R50 to R53, R142, R143). -/
def reserveCard (p : PortId) (code : CardCode) (till : TillId) (asked : Nat) (partialFlag longFlag : Bool) (s : State) :
    Done :=
  match saleCheck p code asked partialFlag s with
  | .refused a => s.only a
  | .passed t amount =>
    if Config.chainLimit ≤ (s.card t.ref).chain.length then s.only (.plain .cardHoldsFull)
    else
      match s.freeList with
      | [] => s.only (.plain .poolFull)
      | i :: _ =>
        let s1 := s.reserveHold i p t till amount longFlag
        s1.only (.held t.ref.isTrial (holdTag i (s.hold i).generation) amount (s1.card t.ref).available
          (deadlineAfter s.clock.time (lifetimeOf t.rules longFlag)))

/-- RESERVE: the engine grants the RESERVE at the head of a port's queue (R50). -/
def execReserve (s : State) : Host.Outcome State Fault Refusal :=
  .next (s.runGrant fun p r =>
    match r with
    | .reserve code till asked partialFlag longFlag => some (reserveCard p code till asked partialFlag longFlag)
    | _ => none)

/-! ### RENEW -/

/-- The renew limit and lifetimes that apply to a hold: those of the governing entry, or the trial limits (R56). -/
def State.renewHold (s : State) (i : Nat) : State :=
  let h := s.hold i
  let d := deadlineAfter s.clock.time (lifetimeOf (s.rulesOf h.card) h.long)
  { s.setHold i { h with deadline := d, renewals := h.renewals + 1 } with
    expiry := enterExpiry (fun j => (s.hold j).deadline) i d (s.expiry.erase i) }

/-- RENEW: tag matching, the renew limit, then a fresh deadline and a new place in the expiry list (R56, R57). -/
def renewTag (p : PortId) (tag : HoldTag) (s : State) : Done :=
  match s.matchTag p tag with
  | .gone => s.only (.plain .holdGone)
  | .notYours => s.only (.plain .notYours)
  | .matched i =>
    let h := s.hold i
    if (s.rulesOf h.card).renewLimit ≤ h.renewals then s.only (.plain .renewLimit)
    else (s.renewHold i).only (.renewed (deadlineAfter s.clock.time (lifetimeOf (s.rulesOf h.card) h.long)))

/-- RENEW: the engine grants the RENEW at the head of a port's queue (R56). -/
def execRenew (s : State) : Host.Outcome State Fault Refusal :=
  .next (s.runGrant fun p r =>
    match r with
    | .renew tag => some (renewTag p tag)
    | _ => none)

/-! ### CAPTURE -/

/-- The effects of an accepted CAPTURE of hold `i`: the hold freed, value lowered by the final amount, last activity
CAPTURE, the movement of a REAL card reported (R69 to R71). -/
def State.captureHold (s : State) (i : Nat) (p : PortId) (final : Nat) (till : TillId) : State :=
  let ref := (s.hold i).card
  let s1 := s.freeHold i
  let c := s1.card ref
  ((s1.setCard ref { c with value := c.value - final }).noteActivity ref p till .capture).report ref (.capture final)

/-- CAPTURE: tag matching, the excess against available, then the sale (R68 to R72). -/
def captureTag (p : PortId) (tag : HoldTag) (final : Nat) (till : TillId) (s : State) : Done :=
  match s.matchTag p tag with
  | .gone => s.only (.plain .holdGone)
  | .notYours => s.only (.plain .notYours)
  | .matched i =>
    let h := s.hold i
    let c := s.card h.card
    if h.amount < final ∧ c.available < final - h.amount then s.only (.short h.amount c.available)
    else
      let s1 := s.captureHold i p final till
      s1.only (.captured final (s1.card h.card).value)

/-- CAPTURE: the engine grants the CAPTURE at the head of a port's queue (R68). -/
def execCapture (s : State) : Host.Outcome State Fault Refusal :=
  .next (s.runGrant fun p r =>
    match r with
    | .capture tag final till => some (captureTag p tag final till)
    | _ => none)

/-! ### RELEASE -/

/-- RELEASE: tag matching, then the hold freed and last activity RELEASE with the stored till id (R73). -/
def releaseTag (p : PortId) (tag : HoldTag) (s : State) : Done :=
  match s.matchTag p tag with
  | .gone => s.only (.plain .holdGone)
  | .notYours => s.only (.plain .notYours)
  | .matched i =>
    let h := s.hold i
    let s1 := (s.freeHold i).noteActivity h.card p h.till .release
    s1.only (.released h.amount (s1.card h.card).available)

/-- RELEASE: the engine grants the RELEASE at the head of a port's queue (R73). -/
def execRelease (s : State) : Host.Outcome State Fault Refusal :=
  .next (s.runGrant fun p r =>
    match r with
    | .release tag => some (releaseTag p tag)
    | _ => none)

/-! ### REDEEM -/

/-- The effects of an accepted REDEEM: value lowered, a use counted, last activity REDEEM, the movement of a REAL card
reported (R77). -/
def State.redeemCard (s : State) (p : PortId) (ref : CardRef) (till : TillId) (amount : Nat) : State :=
  let c := s.card ref
  ((s.setCard ref ({ c with value := c.value - amount }.countUse s.accounts.day)).noteActivity ref p till .redeem).report
    ref (.capture amount)

/-- REDEEM: the five checks, then the amount found is taken (R75 to R77, R142). -/
def redeemCode (p : PortId) (code : CardCode) (till : TillId) (asked : Nat) (partialFlag : Bool) (s : State) : Done :=
  match saleCheck p code asked partialFlag s with
  | .refused a => s.only a
  | .passed t amount =>
    let s1 := s.redeemCard p t.ref till amount
    s1.only (.redeemed t.ref.isTrial amount (s1.card t.ref).value)

/-- REDEEM: the engine grants the REDEEM at the head of a port's queue (R75). -/
def execRedeem (s : State) : Host.Outcome State Fault Refusal :=
  .next (s.runGrant fun p r =>
    match r with
    | .redeem code till asked partialFlag => some (redeemCode p code till asked partialFlag)
    | _ => none)

/-! ### LOAD -/

/-- The effects of an accepted LOAD: value raised, last activity LOAD, the movement of a REAL card reported (R80). -/
def State.loadCard (s : State) (p : PortId) (ref : CardRef) (till : TillId) (amount : Nat) : State :=
  let c := s.card ref
  ((s.setCard ref { c with value := c.value + amount }).noteActivity ref p till .load).report ref (.load amount)

/-- LOAD: the four checks, then the amount cut to the room below the ceiling (R78 to R80, R142). -/
def loadCode (p : PortId) (code : CardCode) (till : TillId) (asked : Nat) (s : State) : Done :=
  if (s.port p).health = .muted then s.only (.plain .portMuted)
  else
    match s.target p code with
    | none => s.only (.plain .unknownCard)
    | some t =>
      let c := s.card t.ref
      match c.state.refusal with
      | some outcome => s.only (.plain outcome)
      | none =>
        if t.rules.ceiling ≤ c.value then s.only (.atCeiling t.ref.isTrial c.value t.rules.ceiling)
        else
          let applied := min asked (t.rules.ceiling - c.value)
          let s1 := s.loadCard p t.ref till applied
          s1.only (.loaded t.ref.isTrial (decide (applied < asked)) applied (s1.card t.ref).value)

/-- LOAD: the engine grants the LOAD at the head of a port's queue (R78). -/
def execLoad (s : State) : Host.Outcome State Fault Refusal :=
  .next (s.runGrant fun p r =>
    match r with
    | .load code till asked => some (loadCode p code till asked)
    | _ => none)

end Sys2Proof.Machine
end

