-- ==== Sys2Proof/Machine/Dispatch.lean ====
section
/-! DEFINITION. Which meaning each command has: one arm per row of spec/opcode_table.json. -/

namespace Sys2Proof.Machine

def exec (i : Instr) (s : State) : Host.Outcome State Fault Refusal :=
  match i with
  | .powerOn rate1 rate0 => Sys2Proof.Machine.execPowerOn rate1 rate0 s
  | .resetNAssert => Sys2Proof.Machine.execResetNAssert s
  | .resetNRelease rate1 rate0 => Sys2Proof.Machine.execResetNRelease rate1 rate0 s
  | .tickSecond => Sys2Proof.Machine.execTickSecond s
  | .dividerSecond => Sys2Proof.Machine.execDividerSecond s
  | .windowExpiry => Sys2Proof.Machine.execWindowExpiry s
  | .lapse => Sys2Proof.Machine.execLapse s
  | .searchStep => Sys2Proof.Machine.execSearchStep s
  | .tallyStep => Sys2Proof.Machine.execTallyStep s
  | .purgeStep => Sys2Proof.Machine.execPurgeStep s
  | .issueRunStep => Sys2Proof.Machine.execIssueRunStep s
  | .grantCompletion => Sys2Proof.Machine.execGrantCompletion s
  | .frameReceived p b => Sys2Proof.Machine.execFrameReceived p b s
  | .idle p b => Sys2Proof.Machine.execIdle p b s
  | .badLength p b => Sys2Proof.Machine.execBadLength p b s
  | .linkTimeout p gap => Sys2Proof.Machine.execLinkTimeout p gap s
  | .idleRecovery p b => Sys2Proof.Machine.execIdleRecovery p b s
  | .answerTransmitStart p => Sys2Proof.Machine.execAnswerTransmitStart p s
  | .answerSent p => Sys2Proof.Machine.execAnswerSent p s
  | .probe => Sys2Proof.Machine.execProbe s
  | .reserve => Sys2Proof.Machine.execReserve s
  | .renew => Sys2Proof.Machine.execRenew s
  | .capture => Sys2Proof.Machine.execCapture s
  | .release => Sys2Proof.Machine.execRelease s
  | .redeem => Sys2Proof.Machine.execRedeem s
  | .load => Sys2Proof.Machine.execLoad s
  | .collect p => Sys2Proof.Machine.execCollect p s
  | .status p => Sys2Proof.Machine.execStatus p s
  | .portStatus p => Sys2Proof.Machine.execPortStatus p s
  | .ident p => Sys2Proof.Machine.execIdent p s
  | .setSeries => Sys2Proof.Machine.execSetSeries s
  | .readSeries => Sys2Proof.Machine.execReadSeries s
  | .issue => Sys2Proof.Machine.execIssue s
  | .block => Sys2Proof.Machine.execBlock s
  | .unblock => Sys2Proof.Machine.execUnblock s
  | .retire => Sys2Proof.Machine.execRetire s
  | .editCard => Sys2Proof.Machine.execEditCard s
  | .readCard => Sys2Proof.Machine.execReadCard s
  | .readHold => Sys2Proof.Machine.execReadHold s
  | .setTime => Sys2Proof.Machine.execSetTime s
  | .search => Sys2Proof.Machine.execSearch s
  | .tally => Sys2Proof.Machine.execTally s
  | .purge => Sys2Proof.Machine.execPurge s
  | .issueRun => Sys2Proof.Machine.execIssueRun s
  | .cancelSweep => Sys2Proof.Machine.execCancelSweep s
  | .closeDay => Sys2Proof.Machine.execCloseDay s
  | .confirmClose => Sys2Proof.Machine.execConfirmClose s
  | .dayReport => Sys2Proof.Machine.execDayReport s
  | .accounts => Sys2Proof.Machine.execAccounts s
  | .trialSet => Sys2Proof.Machine.execTrialSet s
  | .setPort => Sys2Proof.Machine.execSetPort s
  | .setTiming => Sys2Proof.Machine.execSetTiming s
  | .resetPort => Sys2Proof.Machine.execResetPort s
  | .restorePort => Sys2Proof.Machine.execRestorePort s
  | .byteReceived p b => Sys2Proof.Machine.execByteReceived p b s

end Sys2Proof.Machine
end

