-- ==== Sys2Proof/Machine/Step.lean ====
section
/-! DEFINITION. One step: the command at the front of the queue, run on the state with the queue's rest; on an empty queue
one rising edge of REFCLK (DESIGN CHOICE, log 3). -/

namespace Sys2Proof.Machine

/-- One step of the FZ7140. -/
def step (s : State) : Host.Outcome State Fault Refusal :=
  match s.pending with
  | [] => .next s.refclkEdge
  | c :: rest => exec c { s with pending := rest }

/-- The state with the command a word spells at the front of its queue; no row of the table has bits, so no word spells a
command and the state is unchanged (log 21). -/
def State.withFetchWord (s : State) (nbits w : Nat) : State :=
  match decodeTableWord nbits w with
  | some c => { s with pending := c :: s.pending }
  | none => s

end Sys2Proof.Machine
end

