-- ==== Sys2Proof/Safety.lean ====
section
/-! DEFINITION. The words the statements use: which row the engine's next grant is, what a grant leaves unchanged, and what
a sound state is (the laws the manual says the part keeps). -/

namespace Sys2Proof.Machine

/-! ### Grants -/

/-- The row of the table whose step is the grant of a request; none for a port-local request (R29). -/
def Request.row : Request → Option Instr
  | .probe _ => some .probe
  | .reserve _ _ _ _ _ => some .reserve
  | .renew _ => some .renew
  | .capture _ _ _ => some .capture
  | .release _ => some .release
  | .redeem _ _ _ _ => some .redeem
  | .load _ _ _ => some .load
  | .collect | .status | .portStatus _ | .ident => none
  | .setSeries _ _ => some .setSeries
  | .readSeries _ => some .readSeries
  | .issue _ _ => some .issue
  | .block _ => some .block
  | .unblock _ => some .unblock
  | .retire _ => some .retire
  | .editCard _ _ _ _ _ => some .editCard
  | .readCard _ => some .readCard
  | .readHold _ => some .readHold
  | .setTime _ => some .setTime
  | .search _ _ _ _ _ _ => some .search
  | .tally _ _ => some .tally
  | .purge _ _ => some .purge
  | .issueRun _ _ _ _ => some .issueRun
  | .cancelSweep _ => some .cancelSweep
  | .closeDay => some .closeDay
  | .confirmClose => some .confirmClose
  | .dayReport _ => some .dayReport
  | .accounts => some .accounts
  | .trialSet _ _ => some .trialSet
  | .setPort _ _ _ => some .setPort
  | .setTiming _ _ _ _ _ _ => some .setTiming
  | .resetPort _ => some .resetPort
  | .restorePort _ => some .restorePort

/-- The row whose step is a step of a sweep with these parameters (R104). -/
def SweepParams.row : SweepParams → Instr
  | .search _ _ _ _ _ _ => .searchStep
  | .tally _ _ => .tallyStep
  | .purge _ _ => .purgeStep
  | .issueRun _ _ _ _ => .issueRunStep

/-- The rows that are grants of the card engine. -/
def grantRows : List Instr :=
  [.lapse, .searchStep, .tallyStep, .purgeStep, .issueRunStep, .probe, .reserve, .renew, .capture, .release, .redeem,
    .load, .setSeries, .readSeries, .issue, .block, .unblock, .retire, .editCard, .readCard, .readHold, .setTime, .search,
    .tally, .purge, .issueRun, .cancelSweep, .closeDay, .confirmClose, .dayReport, .accounts, .trialSet, .setPort,
    .setTiming, .resetPort, .restorePort]

/-- The row the engine's next grant is: none while it is busy or nobody claims (R30, R33). -/
def State.nextRow (s : State) : Option Instr :=
  match s.nextGrant with
  | none => none
  | some (.port p) => (s.port p).requests.head?.bind fun q => q.request.row
  | some .expiry => some .lapse
  | some (.sweep u) => some (s.sweep u).params.row

/-- How many positions the engine tries before a claimant's: 0 for the position after the last granted, 8 for the last
granted itself (R30). -/
def State.turn (s : State) (c : Claimant) : Nat :=
  (c.position - s.lastGranted - 1).val

/-- The engine's next grant is request `r` of port `p`, `s1` is the state the request meets once its grant has started,
and the port's role permits the request (R30 to R32, R153). -/
structure Granted (s : State) (p : PortId) (tag : Byte) (r : Request) (s1 : State) : Prop where
  chosen : s.nextRequest = some (p, ⟨tag, r⟩)
  start : s1 = s.startGrant p r
  permitted : r.permitted (s1.port p).role p = true

/-- A state with the grant of port `p`'s request in progress: the answer formed, nothing to discard, and STATUS reading
what stood before the grant in `s` (R31, R158). -/
def State.answering (w s : State) (p : PortId) (tag : Byte) (a : Answer) : State :=
  { w with inFlight := some ⟨p, tag, a, false, s.view⟩ }

/-- The answer places of a port that are taken: one for each answer that waits, one promised to each queued request and one
to the port's request between grant and completion (R154). -/
def State.takenPlaces (s : State) (p : PortId) : Nat :=
  (s.port p).answers.length + (s.port p).requests.length +
    match s.inFlight with
    | some f => if f.port = p then 1 else 0
    | none => 0

/-! ### What changed, and nothing else -/

/-- Of all cards, the one `ref` names became `c`. -/
structure OneCard (s w : State) (ref : CardRef) (c : Card) : Prop where
  written : w.card ref = c
  others : ∀ q, q ≠ ref → w.card q = s.card q

/-- A sweep unit after the card `ref` names went from `old` to `new`: a RUNNING TALLY that has passed its slot takes the
change of contribution into its drift; nothing else of the unit changed (R113, R142). -/
def afterChange (w : Sweep) (ref : CardRef) (old new : Card) : Sweep :=
  match ref with
  | .real slot => Sweep.drifted slot (driftOf old new) w
  | .trial _ => w

/-- The drifts of both sweep units follow a change of one card (R113). -/
def DriftsFollow (s w : State) (ref : CardRef) : Prop :=
  ∀ u, w.sweep u = afterChange (s.sweep u) ref (s.card ref) (w.card ref)

/-- Of all hold records, the one at `i` became `h`. -/
structure OneHold (s w : State) (i : Nat) (h : Hold) : Prop where
  written : w.hold i = h
  others : ∀ j, j ≠ i → w.hold j = s.hold j

/-- The open-hold count of the governing entry of a REAL hold's slot moved by `f`; no other count and no other field of
any entry changed (R13). -/
def CountMoves (s w : State) (ref : CardRef) (f : Nat → Nat) : Prop :=
  ∀ e, w.entry e =
    match ref with
    | .real slot =>
      if s.governing slot = some e then { s.entry e with openHolds := f (s.entry e).openHolds } else s.entry e
    | .trial _ => s.entry e

/-- The list `after` is the list `before` with `i` entered behind every hold in front of it, all of them due at or before
`d`, and before a hold due later (R43). -/
def EnteredAt (deadlineOf : Nat → Nat) (i d : Nat) (before after : List Nat) : Prop :=
  ∃ front rear, before = front ++ rear ∧ after = front ++ i :: rear ∧ (∀ j ∈ front, deadlineOf j ≤ d) ∧
    ∀ j ∈ rear.head?, d < deadlineOf j

/-- Of all ports, `p` became `port`. -/
structure OnePort (s w : State) (p : PortId) (port : Port) : Prop where
  written : w.port p = port
  others : ∀ q, q ≠ p → w.port q = s.port q

/-- The accounts block after a movement with these figures on the card `ref` names: the lifetime counters and the day set
the close state selects take them; a trial card's movement reaches none (R64, R123, R125). -/
def afterMovement (a : Accounts) (ref : CardRef) (f : Figures) : Accounts :=
  match ref with
  | .trial _ => a
  | .real _ =>
    match a.close with
    | .opened => { a with lifetime := a.lifetime.add f, current := a.current.add f }
    | .closing _ _ _ => { a with lifetime := a.lifetime.add f, next := a.next.add f }

/-- The amount a sale finds: the amount asked when that is available, the whole available amount under an honoured partial
flag (R51, R76). -/
def AmountFound (available asked : Nat) (honoured : Bool) (amount : Nat) : Prop :=
  available ≠ 0 ∧ ((asked ≤ available ∧ amount = asked) ∨ (available < asked ∧ honoured = true ∧ amount = available))

/-- The use limit leaves room for one more use today (R17, R50 check 4). -/
def UseAllowed (limit : Nat) (c : Card) (day : Nat) : Prop :=
  limit = 0 ∨ (if c.useDay = day then c.uses else 0) < limit

/-- The uses of a card after one more counted use on a day (R18). -/
def usesAfter (c : Card) (day : Nat) : Nat :=
  if c.useDay = day then min (c.uses + 1) 255 else 1

/-! ### Bytes of an answer (11.4, 11.5) -/

/-- Numbers in fields of the given widths in bytes, back to back, each most significant byte first (chapter 11). -/
def laidOut (fields : List (Nat × Nat)) : List Byte :=
  fields.flatMap fun f => (List.range f.1).map fun i => BitVec.ofNat 8 (f.2 / 256 ^ (f.1 - 1 - i))

/-- Width and value of each of six figures (R179). -/
def Figures.layout (f : Figures) : List (Nat × Nat) :=
  [(8, f.issued.toNat), (8, f.loaded.toNat), (8, f.captured.toNat), (8, f.writtenOff.toNat), (8, f.adjusted.toNat),
    (8, f.captureCount.toNat)]

/-- Width and value of each field of a sweep's results (R180). -/
def SweepReport.layout : SweepReport → List (Nat × Nat)
  | .search slot examined blockedSeen => [(3, slot.getD 0), (3, examined), (1, blockedSeen.toNat)]
  | .tally valueSum heldSum cardCount drift time =>
    [(6, valueSum.toNat), (6, heldSum.toNat), (3, cardCount), (6, drift.value.toNat), (6, drift.held.toNat),
      (4, drift.count.toNat), (4, time)]
  | .purge freedCount freedAmount => [(2, freedCount), (6, freedAmount.toNat)]
  | .issueRun issued skipped valueIssued => [(3, issued), (3, skipped), (6, valueIssued)]

/-- Kind, and width and value of each field of the record, of a notice (R180). -/
def Notice.layout : Notice → Nat × List (Nat × Nat)
  | .holdExpired tag (.real code) amount till => (1, [(2, tag.toNat), (1, 0), (6, code.toNat), (3, amount), (2, till.toNat)])
  | .holdExpired tag (.trial card) amount till => (1, [(2, tag.toNat), (1, 1), (6, card.val), (3, amount), (2, till.toNat)])
  | .holdsPurged count amount => (2, [(2, count), (6, amount.toNat)])
  | .sweepDone unit reason cursor report =>
    (3, [(1, unit.val), (1, report.kind.code.toNat), (1, reason.code.toNat), (3, cursor)] ++ report.layout)
  | .closeDropped day cause => (4, [(2, day), (1, cause.code.toNat)])
  | .portState port before after count cause =>
    (5, [(1, port.val), (1, before.code.toNat), (1, after.code.toNat), (1, count), (1, cause.code.toNat)])

/-- Width and value of each field of a trial card, 17 bytes (11.4; bit 3 of the activity byte is log 22). -/
def trialCardLayout (c : Card) : List (Nat × Nat) :=
  [(3, c.value), (3, c.held), (1, c.chain.length), (2, c.useDay), (1, c.uses)] ++
    match c.last with
    | none => [(7, 0)]
    | some a => [(1, 128 + 16 * a.port.val + a.kind.code.toNat), (2, a.till.toNat), (4, a.time)]

/-- State and kind of a sweep unit; the kind of an IDLE unit is zero (R158, R179). -/
def sweepUnitLayout : Option SweepKind → List (Nat × Nat)
  | none => [(1, 0), (1, 0)]
  | some kind => [(1, 1), (1, kind.code.toNat)]

/-- Outcome value, and width and value of each field of each frame, of an answer (R177, R179, 11.2, 11.4); what the manual
leaves to prose is log 12, and the bytes of a TRIAL-IN-USE are free (log 11). -/
def Answer.layout : Answer → Byte × List (List (Nat × Nat))
  | .plain o => (o.code, [[]])
  | .probed trial state value available holds usesLeft =>
    (0x07, [[(1, trial.toNat), (1, state.code.toNat), (3, value), (3, available), (1, holds), (1, usesLeft)]])
  | .held trial tag amount available deadline =>
    (0x01, [[(1, trial.toNat), (2, tag.toNat), (3, amount), (3, available), (4, deadline)]])
  | .noFunds trial available => (0x4F, [[(1, trial.toNat), (3, available)]])
  | .renewed deadline => (0x02, [[(4, deadline)]])
  | .captured amount value => (0x03, [[(3, amount), (3, value)]])
  | .short hold available => (0x55, [[(3, hold), (3, available)]])
  | .released amount available => (0x04, [[(3, amount), (3, available)]])
  | .redeemed trial amount value => (0x05, [[(1, trial.toNat), (3, amount), (3, value)]])
  | .loaded trial shortApplied amount value =>
    (0x06, [[(1, trial.toNat + 2 * shortApplied.toNat), (3, amount), (3, value)]])
  | .atCeiling trial value ceiling => (0x56, [[(1, trial.toNat), (3, value), (3, ceiling)]])
  | .seriesRecord entry ⟨f, openHolds⟩ =>
    (0x00, [[(1, entry.val), (1, f.enabled.toNat), (4, f.matchBits.toNat), (4, f.mask.toNat), (3, f.base), (3, f.count),
      (3, f.ceiling), (2, f.shortLifetime), (2, f.longLifetime), (1, f.useLimit), (1, f.partialAllowed.toNat),
      (1, f.renewLimit), (2, openHolds)]])
  | .issued slot value => (0x00, [[(3, slot), (3, value)]])
  | .stateSet slot state => (0x00, [[(3, slot), (1, state.code.toNat)]])
  | .retired slot amount => (0x00, [[(3, slot), (3, amount)]])
  | .edited slot value heldNow useDay uses => (0x00, [[(3, slot), (3, value), (3, heldNow), (2, useDay), (1, uses)]])
  | .cardRecord slot c available todaysUses tags =>
    (0x00, [[(3, slot), (1, c.state.code.toNat), (3, c.value), (3, c.held), (3, available), (2, c.useDay), (1, c.uses),
      (1, todaysUses)] ++
      (match c.last with
        | none => [(1, 0), (8, 0)]
        | some a => [(1, 1), (1, a.port.val), (2, a.till.toNat), (4, a.time), (1, a.kind.code.toNat)]) ++
      (1, tags.length) :: tags.map fun t => (2, t.toNat)])
  | .holdRecord index h entry =>
    (0x00, [[(2, index), (1, h.isOpen.toNat), (1, h.generation.toNat), (2, 4096 * h.generation.toNat + index % 4096)] ++
      (match h.card with
        | .real slot => [(1, 0), (3, slot)]
        | .trial card => [(1, 1), (3, card.val)]) ++
      [(1, h.owner.val), (2, h.till.toNat), (3, h.amount), (4, h.created), (4, h.deadline), (1, h.long.toNat),
        (1, h.renewals), (1, (entry.map Fin.val).getD 0xFF)]])
  | .hasHolds count => (0x49, [[(1, count)]])
  | .timeSet before after => (0x00, [[(4, before), (4, after)]])
  | .accepted unit => (0x08, [[(1, unit.val)]])
  | .cancelled unit kind => (0x09, [[(1, unit.val), (1, kind.code.toNat)]])
  | .closeReady day figures deadline => (0x0A, [(2, day) :: figures.layout ++ [(4, deadline)]])
  | .closeBusy owner => (0x59, [[(1, owner.val)]])
  | .closed day newDay => (0x0B, [[(2, day), (2, newDay)]])
  | .dayRecord r => (0x00, [(2, r.day) :: r.figures.layout ++ [(1, r.port.val), (4, r.time)]])
  | .notKept oldest newest => (0x5B, [[(2, oldest), (2, newest)]])
  | .accounts lifetime current next day close records =>
    (0x00, [(1, 0x13) :: lifetime.layout ++ [(2, day)] ++
      (match close with
        | .opened => [(1, 0), (1, 0), (4, 0)]
        | .closing owner _ deadline => [(1, 1), (1, owner.val), (4, deadline)]) ++ [(1, records)],
      (1, 0x23) :: current.layout, (1, 0x33) :: next.layout])
  | .trialCards cards =>
    (0x00, [(1, 0x12) :: trialCardLayout cards[0] ++ trialCardLayout cards[1],
      (1, 0x22) :: trialCardLayout cards[2] ++ trialCardLayout cards[3]])
  | .trialInUse cards => (0x5C, [(trialInUseBytes cards).map fun b => (1, b.toNat)])
  | .portSet role mode => (0x00, [[(1, role.code.toNat), (1, mode.code.toNat)]])
  | .timingSet timeout recovery window base divisor =>
    (0x00, [[(1, timeout), (1, recovery.code.toNat), (1, window), (1, base.code.toNat), (3, divisor)]])
  | .restored healthBefore countBefore healthAfter countAfter =>
    (0x00, [[(1, healthBefore.code.toNat), (1, countBefore), (1, healthAfter.code.toNat), (1, countAfter)]])
  | .notice n overrun left => (0x0C, [(1, n.layout.1) :: (1, overrun.toNat) :: (1, left) :: n.layout.2])
  | .status freeHolds sweeps close day time =>
    (0x00, [(2, freeHolds) ::
      sweeps.flatMap sweepUnitLayout ++
      (match close with
        | none => [(1, 0), (1, 0)]
        | some owner => [(1, 1), (1, owner.val)]) ++ [(2, day), (4, time)]])
  | .portRecord r =>
    (0x00, [[(1, r.role.code.toNat), (1, r.mode.code.toNat), (1, r.health.code.toNat), (1, r.errorCount), (1, r.timeout),
      (1, r.recovery.code.toNat), (1, r.requests), (1, r.answers), (1, r.notices), (1, r.wait.toNat), (1, r.attn.toNat),
      (1, r.idleRun)]])
  | .identity =>
    (0x00, [[(2, 0x4A7E), (2, 0x7140), (1, 0x01), (3, 6), (3, 16), (3, 131072), (3, 4096), (3, 2), (3, 8)]])

/-! ### Bytes of a request (11.2, 11.3) -/

/-- Kind value, kind and body length of every request (11.3). -/
def requestTable : List (Nat × Kind × Nat) :=
  [(0x00, .idle, 2), (0x10, .probe, 8), (0x11, .reserve, 15), (0x12, .renew, 4), (0x13, .capture, 9), (0x14, .release, 4),
    (0x15, .redeem, 14), (0x16, .load, 13)] ++
  [(0x20, .collect, 2), (0x21, .status, 2), (0x22, .portStatus, 3), (0x23, .ident, 2)] ++
  [(0x30, .setSeries, 28), (0x31, .readSeries, 3), (0x32, .issue, 12), (0x33, .block, 9), (0x34, .unblock, 9),
    (0x35, .retire, 9), (0x36, .editCard, 15), (0x37, .readCard, 9), (0x38, .readHold, 4)] ++
  [(0x40, .setTime, 6), (0x41, .search, 23), (0x42, .tally, 8), (0x43, .purge, 6), (0x44, .issueRun, 12),
    (0x45, .cancelSweep, 3)] ++
  [(0x50, .closeDay, 2), (0x51, .confirmClose, 2), (0x52, .dayReport, 4), (0x53, .accounts, 2), (0x54, .trialSet, 15)] ++
  [(0x60, .setPort, 5), (0x61, .setTiming, 10), (0x62, .resetPort, 3), (0x63, .restorePort, 3)]

/-- A card address: flag byte, then the code or the slot in six bytes (11.2). -/
def Address.bytes : Address → List Byte
  | .code c => 0 :: natBytes 6 c.toNat
  | .slot n => 1 :: natBytes 6 n

/-- Criterion field code (11.2). -/
def CritField.code : CritField → Byte
  | .value => 1
  | .available => 2
  | .held => 3
  | .usesToday => 4
  | .lastTime => 5

/-- Relation code (11.2). -/
def Relation.code : Relation → Byte
  | .eq => 0
  | .le => 1
  | .ge => 2

/-- A criterion: field, relation and operand of four bytes; those of ANY are sent as zeros (11.3). -/
def Criterion.bytes : Criterion → List Byte
  | .any => [0, 0] ++ natBytes 4 0
  | .figure field relation operand => [field.code, relation.code] ++ natBytes 4 operand

/-- The field bytes of a request in the order and widths of the table of 11.3. -/
def Request.fieldBytes : Request → List Byte
  | .probe code => natBytes 6 code.toNat
  | .reserve code till amount partialFlag longFlag =>
    natBytes 6 code.toNat ++ natBytes 2 till.toNat ++ natBytes 3 amount ++ [boolByte partialFlag, boolByte longFlag]
  | .renew tag => natBytes 2 tag.toNat
  | .capture tag final till => natBytes 2 tag.toNat ++ natBytes 3 final ++ natBytes 2 till.toNat
  | .release tag => natBytes 2 tag.toNat
  | .redeem code till amount partialFlag =>
    natBytes 6 code.toNat ++ natBytes 2 till.toNat ++ natBytes 3 amount ++ [boolByte partialFlag]
  | .load code till amount => natBytes 6 code.toNat ++ natBytes 2 till.toNat ++ natBytes 3 amount
  | .collect | .status | .ident | .closeDay | .confirmClose | .accounts => []
  | .portStatus target | .resetPort target | .restorePort target => natBytes 1 target.val
  | .setSeries entry f =>
    natBytes 1 entry.val ++ [boolByte f.enabled] ++ natBytes 4 f.matchBits.toNat ++ natBytes 4 f.mask.toNat
      ++ natBytes 3 f.base ++ natBytes 3 f.count ++ natBytes 3 f.ceiling ++ natBytes 2 f.shortLifetime
      ++ natBytes 2 f.longLifetime ++ natBytes 1 f.useLimit ++ [boolByte f.partialAllowed] ++ natBytes 1 f.renewLimit
  | .readSeries entry => natBytes 1 entry.val
  | .issue address value => address.bytes ++ natBytes 3 value
  | .block address | .unblock address | .retire address | .readCard address => address.bytes
  | .editCard address editValue editUses newValue newUses =>
    address.bytes ++ [boolByte editValue + 2 * boolByte editUses] ++ natBytes 3 newValue ++ natBytes 2 newUses
  | .readHold index => natBytes 2 index
  | .setTime time => natBytes 4 time
  | .search start stop critA critB limit skip =>
    natBytes 3 start ++ natBytes 3 stop ++ critA.bytes ++ critB.bytes ++ natBytes 2 limit ++ [boolByte skip]
  | .tally start stop => natBytes 3 start ++ natBytes 3 stop
  | .purge owner till =>
    natBytes 1 owner.val ++
      match till with
      | none => [0, 0, 0]
      | some t => 1 :: natBytes 2 t.toNat
  | .issueRun start stop stride value => natBytes 3 start ++ natBytes 3 stop ++ natBytes 1 stride ++ natBytes 3 value
  | .cancelSweep unit => natBytes 1 unit.val
  | .dayReport day => natBytes 2 day
  | .trialSet write values =>
    boolByte write :: (natBytes 3 values[0] ++ natBytes 3 values[1] ++ natBytes 3 values[2] ++ natBytes 3 values[3])
  | .setPort target role mode => natBytes 1 target.val ++ [role.code, mode.code]
  | .setTiming target timeout recovery window base divisor =>
    natBytes 1 target.val ++ natBytes 1 timeout ++ [recovery.code] ++ natBytes 1 window ++ [base.code]
      ++ natBytes 3 divisor

/-! ### Ranges of requests (step 5 of R152) -/

/-- A card address in range (R21). -/
def Address.inRange : Address → Bool
  | .code _ => true
  | .slot n => decide (n < Config.slots)

/-- A criterion whose operand lies in its field's range (R108). -/
def Criterion.inRange : Criterion → Bool
  | .any => true
  | .figure .value _ operand | .figure .available _ operand | .figure .held _ operand => decide (operand ≤ Config.maxAmount)
  | .figure .usesToday _ operand => decide (operand ≤ 255)
  | .figure .lastTime _ operand => decide (operand ≤ Config.maxTime)

/-- A range of slots of the card table (R108). -/
def slotRange (start stop : Nat) : Bool :=
  decide (start ≤ stop) && decide (stop < Config.slots)

/-- The fields of a request lie in the ranges its rule gives for the content checks, or in the width of the field where
the card engine judges the range (R8, R25, R152, R178). -/
def Request.inRange : Request → Bool
  | .probe _ | .renew _ | .release _ | .collect | .status | .portStatus _ | .ident | .readSeries _ | .purge _ _
  | .cancelSweep _ | .closeDay | .confirmClose | .accounts | .setPort _ _ _ | .resetPort _ | .restorePort _ => true
  | .reserve _ _ amount _ _ | .redeem _ _ amount _ | .load _ _ amount =>
    decide (1 ≤ amount) && decide (amount ≤ Config.maxAmount)
  | .capture _ final _ => decide (final ≤ Config.maxAmount)
  | .setSeries _ f =>
    decide (f.base < 2 ^ 24) && decide (f.count < 2 ^ 24) && decide (f.ceiling < 2 ^ 24)
      && decide (f.shortLifetime < 2 ^ 16) && decide (f.longLifetime < 2 ^ 16) && decide (f.useLimit < 256)
      && decide (f.renewLimit < 256)
  | .issue address value => address.inRange && decide (value ≤ Config.maxAmount)
  | .block address | .unblock address | .retire address | .readCard address => address.inRange
  | .editCard address editValue editUses newValue newUses =>
    address.inRange && (editValue || editUses) && decide (newValue < 2 ^ 24) && decide (newUses ≤ 255)
  | .readHold index => decide (index < Config.holdRecords)
  | .setTime time => decide (time ≤ Config.maxTime)
  | .search start stop critA critB limit _ =>
    slotRange start stop && critA.inRange && critB.inRange && decide (limit < 2 ^ 16)
  | .tally start stop => slotRange start stop
  | .issueRun start stop stride value =>
    slotRange start stop && decide (1 ≤ stride) && decide (stride ≤ 8) && decide (value ≤ Config.maxAmount)
  | .dayReport day => decide (1 ≤ day) && decide (day ≤ Config.maxDay)
  | .trialSet _ values => values.toList.all fun v => decide (v ≤ Config.trialCeiling)
  | .setTiming _ timeout _ window _ divisor =>
    decide (timeout < 256) && decide (1 ≤ window) && decide (window ≤ 255) && decide (divisor < 2 ^ 24)

/-! ### Sound states -/

/-- The card table and the hold pool are in their canonical form. -/
def TablesOk (s : State) : Prop :=
  Table.wf Card.blank s.cards ∧ Table.wf Hold.fresh s.holds

/-- A port's queues, places, counts and health are in their ranges, its health follows its count, and a port in OFF has
nothing to execute or answer (R154, R164 to R167, R171). -/
structure PortOk (s : State) (p : PortId) : Prop where
  requests : (s.port p).requests.length ≤ Config.requestPlaces
  places : s.usedPlaces p ≤ Config.answerPlaces
  notices : (s.port p).notices.length ≤ Config.noticePlaces
  contents : ∀ q ∈ (s.port p).requests, q.request.inRange = true
  count : (s.port p).errorCount ≤ 255
  run : (s.port p).idleRun < Config.idleRunGoal
  follows : (s.port p).health ≠ .off → (s.port p).health = healthOfCount (s.port p).errorCount ∧ (s.port p).idleRun = 0
  cutOff : (s.port p).health = .off →
    (s.port p).errorCount = 255 ∧ (s.port p).requests = [] ∧ (s.port p).answers = []
  discards : (s.port p).health = .off → ∀ f, s.inFlight = some f → f.port = p → f.discarded = true

/-- Every port is sound. -/
def PortsOk (s : State) : Prop :=
  ∀ p, PortOk s p

/-- The device clock in range: a divided clock has a divisor and its divider stands below it, and with TICK selected the
divider stands at 0 (R86 to R88). -/
structure ClockOk (s : State) : Prop where
  time : s.clock.time ≤ Config.maxTime
  divisor : s.clock.divisor < 2 ^ 24
  ticking : s.clock.base = .tick → s.clock.divider = 0
  divided : s.clock.base = .divided → s.clock.divider < s.clock.divisor

/-- The accounts block and the roles: next is zero in OPEN; a pending close has the frozen set in current, an OFFICE owner
that is not OFF, and its deadline ahead; the closed days are at most eight, consecutive, the newest the day before the
current one (or day 65,535 again); some port is OFFICE and no OFFICE port is in TRIAL (R125, R126, R129, R132, R146). -/
structure DayOk (s : State) : Prop where
  opened : s.accounts.close = .opened → s.accounts.next = .zero
  closing : ∀ owner frozen deadline, s.accounts.close = .closing owner frozen deadline →
    frozen = s.accounts.current ∧ (s.port owner).role = .office ∧ (s.port owner).health ≠ .off ∧ s.clock.time < deadline
  window : 1 ≤ s.accounts.window ∧ s.accounts.window ≤ 255
  day : 1 ≤ s.accounts.day ∧ s.accounts.day ≤ Config.maxDay
  kept : s.accounts.closedDays.length ≤ Config.closedDayPlaces
  consecutive : (s.accounts.closedDays.map ClosedDay.day).IsChain fun a b => b = a + 1
  newest : ∀ r, s.accounts.closedDays.getLast? = some r →
    r.day + 1 = s.accounts.day ∨ (s.accounts.day = Config.maxDay ∧ r.day = Config.maxDay)
  office : ∃ p, (s.port p).role = .office
  normal : ∀ p, (s.port p).role = .office → (s.port p).mode = .normal

/-- The series table: every entry in range or never written, and no two enabled entries with overlapping slot ranges
(R2, R9, R14). -/
structure SeriesOk (s : State) : Prop where
  ranges : ∀ e, (s.entry e).fields = SeriesEntry.cleared.fields ∨ (s.entry e).fields.inRange = true
  widths : ∀ e, (s.entry e).fields.longLifetime < 2 ^ 16 ∧ (s.entry e).fields.useLimit < 256
  disjoint : ∀ e o, e ≠ o → (s.entry e).fields.enabled = true → (s.entry o).fields.enabled = true →
    ∀ slot, ¬((s.entry e).fields.covers slot = true ∧ (s.entry o).fields.covers slot = true)

/-- The highest value of a card (R16, R140). -/
def CardRef.highest : CardRef → Nat
  | .real _ => Config.maxAmount
  | .trial _ => Config.trialCeiling

/-- An open hold stands against a slot in an entry's range (R13). -/
def Hold.standsIn (h : Hold) (f : SeriesFields) : Bool :=
  match h.card with
  | .real slot => f.covers slot
  | .trial _ => false

/-- The hold pool: every record in the free list or OPEN, on the chain of its card and in the expiry list, once; the expiry
list in deadline order; held the sum of the chain's amounts and within the value; at most eight holds on a card; the
open-hold counts right; TRIAL holds owned by ports in TRIAL (R13, R16, R20, R38, R41, R42, R43, R140, R146). -/
structure PoolOk (s : State) : Prop where
  tables : TablesOk s
  freeOnce : s.freeList.Nodup
  free : ∀ i, i ∈ s.freeList ↔ i < Config.holdRecords ∧ (s.hold i).isOpen = false
  inPool : ∀ i, (s.hold i).isOpen = true → i < Config.holdRecords
  expiryOnce : s.expiry.Nodup
  expires : ∀ i, i ∈ s.expiry ↔ (s.hold i).isOpen = true
  order : (s.expiry.map fun i => (s.hold i).deadline).Pairwise (· ≤ ·)
  chainOnce : ∀ ref, (s.card ref).chain.Nodup
  chained : ∀ ref i, i ∈ (s.card ref).chain ↔ (s.hold i).isOpen = true ∧ (s.hold i).card = ref
  chainLength : ∀ ref, (s.card ref).chain.length ≤ Config.chainLimit
  held : ∀ ref, (s.card ref).held = ((s.card ref).chain.map fun i => (s.hold i).amount).sum
  covered : ∀ ref, (s.card ref).held ≤ (s.card ref).value
  bounded : ∀ ref, (s.card ref).value ≤ ref.highest
  empty : ∀ slot, ((s.slotCard slot).state = .blank ∨ (s.slotCard slot).state = .retired) →
    (s.slotCard slot).value = 0 ∧ (s.slotCard slot).chain = []
  trialActive : ∀ t, (s.card (.trial t)).state = .active
  trialBases : ∀ t : TrialId, s.trialBases[t] ≤ Config.trialCeiling
  governed : ∀ i slot, (s.hold i).isOpen = true → (s.hold i).card = .real slot → (s.governing slot).isSome = true
  counts : ∀ e, (s.entry e).openHolds =
    if (s.entry e).fields.enabled then (s.expiry.filter fun i => (s.hold i).standsIn (s.entry e).fields).length else 0
  trialOwners : ∀ i t, (s.hold i).isOpen = true → (s.hold i).card = .trial t → (s.port (s.hold i).owner).mode = .trial
  issues : ∀ u start stop stride value, (s.sweep u).running = true →
    (s.sweep u).params = .issueRun start stop stride value → value ≤ Config.maxAmount

/-- The sum of value over all card records, modulo 2^64 (R124). -/
def State.totalValue (s : State) : Word64 :=
  (s.cards.map fun e => BitVec.ofNat 64 e.2.value).sum

/-- The balance of R124. -/
def BalanceOk (s : State) : Prop :=
  s.totalValue = s.accounts.lifetime.issued + s.accounts.lifetime.loaded - s.accounts.lifetime.captured
    - s.accounts.lifetime.writtenOff + s.accounts.lifetime.adjusted

/-- The cursor of a RUNNING sweep stands in its range (R104, R110, R114, R117, R120). -/
def Sweep.cursorOk (w : Sweep) : Prop :=
  match w.params with
  | .search start stop _ _ _ _ | .tally start stop | .issueRun start stop _ _ => start ≤ w.cursor ∧ w.cursor ≤ stop
  | .purge _ _ => w.cursor < Config.holdRecords

/-- The contributions of the slots of a range below a cursor, added up (R113). -/
def State.contributions (s : State) (start cursor : Nat) : Drift where
  value := ((List.range' start (cursor - start)).map fun n => (s.slotCard n).contribution.value).sum
  held := ((List.range' start (cursor - start)).map fun n => (s.slotCard n).contribution.held).sum
  count := ((List.range' start (cursor - start)).map fun n => (s.slotCard n).contribution.count).sum

/-- The law of R113: sums plus drifts of a RUNNING TALLY are the contributions of the slots of its range below its cursor
as they stand; and the cursor of every RUNNING sweep stands in its range. -/
structure SweepsOk (s : State) : Prop where
  cursors : ∀ u, (s.sweep u).running = true → (s.sweep u).cursorOk
  tallies : ∀ u start stop, (s.sweep u).running = true → (s.sweep u).params = .tally start stop →
    (s.contributions start (s.sweep u).cursor) =
      ⟨(s.sweep u).results.valueSum + (s.sweep u).drift.value, (s.sweep u).results.heldSum + (s.sweep u).drift.held,
        BitVec.ofNat 64 (s.sweep u).results.cardCount + (s.sweep u).drift.count⟩

/-- While RESET_N is low nothing is queued, received, sent, granted or swept, and WAIT and ATTN are low (R35, R163). -/
structure QuietInReset (s : State) : Prop where
  ports : s.resetLow = true → ∀ p, (s.port p).requests = [] ∧ (s.port p).answers = [] ∧ (s.port p).notices = [] ∧
    (s.port p).receiver = .hunt ∧ (s.port p).sending = none ∧ s.waitLevel p = false ∧ s.attnLevel p = false
  engine : s.resetLow = true → s.inFlight = none ∧ s.expiry = [] ∧ s.nextGrant = none
  sweeps : s.resetLow = true → ∀ u, (s.sweep u).running = false
  close : s.resetLow = true → s.accounts.close = .opened

end Sys2Proof.Machine
end

