-- ==== Sys2Proof/Certificates/Slice0/Obligations.lean ====
section
/-! DEFINITION. The statements about the FZ7140 for the provers. A grant's statement is about the state `s1` its request
meets (`Granted`), gives the state it answers with, and ends with what it leaves unchanged. -/

open Sys2Proof Sys2Proof.Machine

/-! ### Steps, claims and grants -/

/-- A step takes the command at the front of the queue and runs it on the state with the queue's rest; on an empty queue it
is one rising edge of REFCLK, the model's choice (log 3). -/
def Obligations.StepRunsTheFrontCommand : Prop :=
  (∀ (c : Instr) (s : State), step { s with pending := c :: s.pending } = exec c s) ∧
    ∀ s : State, s.pending = [] → step s = .next s.refclkEdge

/-- R29, R30, R33: which positions of the ring claim, and that a free engine grants the first claiming position after the
last granted one, that one last; a port's grant is of the request at the head of its queue. -/
def Obligations.RingGrantsTheNextClaimant : Prop :=
  ∀ s : State,
    (∀ p, s.claims (.port p) = true ↔
      ∃ q rest, (s.port p).requests = q :: rest ∧ q.request.kind ∉ [Kind.collect, .status, .portStatus, .ident]) ∧
    (s.claims .expiry = true ↔ ∃ i rest, s.expiry = i :: rest ∧ (s.hold i).deadline ≤ s.clock.time) ∧
    (∀ u, s.claims (.sweep u) = true ↔ (s.sweep u).running = true) ∧
    (∀ c, s.nextGrant = some c ↔
      s.inFlight = none ∧ s.claims c = true ∧ ∀ d, s.claims d = true → s.turn c ≤ s.turn d) ∧
    (∀ p q, s.nextRequest = some (p, q) ↔ s.nextGrant = some (.port p) ∧ ∃ rest, (s.port p).requests = q :: rest) ∧
    ∀ u, s.nextSweep = some u ↔ s.nextGrant = some (.sweep u)

/-- R30 to R32, R130, R131: at the start of a port's grant its position becomes the last granted, the request leaves the
queue, and a close the port owns is dropped with its notice unless the request is CONFIRM-CLOSE; nothing else changes. -/
def Obligations.GrantStartDropsAStrayClose : Prop :=
  ∀ (s : State) (p : PortId) (r : Request),
    let t := s.startGrant p r
    let popped : Port := { s.port p with requests := (s.port p).requests.tail }
    t = { s with lastGranted := t.lastGranted, ports := t.ports, accounts := t.accounts } ∧
    t.lastGranted.val = p.val ∧
    (r.kind = .confirmClose ∨ s.accounts.close.owner? ≠ some p → OnePort s t p popped ∧ t.accounts = s.accounts) ∧
    (r.kind ≠ .confirmClose → s.accounts.close.owner? = some p →
      OnePort s t p { popped with notices := pushNotice (.closeDropped s.accounts.day .strayRequest) popped.notices } ∧
      t.accounts = { s.accounts with
        current := s.accounts.current.add s.accounts.next, next := .zero, close := .opened })

/-- A grant row that is not the ring's choice does not take place: nothing changes. The row as a command that may come at
any time is the model's choice (log 1); that only the ring's choice is granted is R30 and R33. -/
def Obligations.UngrantedRowChangesNothing : Prop :=
  ∀ (s : State) (c : Instr), c ∈ grantRows → s.nextRow ≠ some c → exec c s = .next s

/-- R153: which roles permit a card-engine request, and that one the port's present role does not permit is answered
NOT-PERMITTED at its grant and changes nothing but what the start of the grant does. -/
def Obligations.GrantOfUnpermittedRequest : Prop :=
  (∀ (role : Role) (p : PortId) (r : Request), r.row ≠ none → (r.permitted role p = true ↔
    if r.kind ∈ [Kind.reserve, .renew, .capture, .release, .redeem, .load] then role = .till
    else if r.kind = .probe then True
    else role = .office)) ∧
  ∀ (s : State) (p : PortId) (tag : Byte) (r : Request) (c : Instr),
    s.nextRequest = some (p, ⟨tag, r⟩) → r.row = some c → r.permitted (s.port p).role p = false →
    exec c s = .next ((s.startGrant p r).answering s p tag (.plain .notPermitted))

/-- R31, R154: GRANT_COMPLETION ends the grant in progress; its answer joins the port's answer queue, or is discarded.
With no grant in progress nothing changes. -/
def Obligations.GrantCompletionHandsTheAnswerOver : Prop :=
  ∀ s : State,
    (s.inFlight = none → exec .grantCompletion s = .next s) ∧
    ∀ f, s.inFlight = some f → ∃ w, exec .grantCompletion s = .next w ∧
      w = { s with inFlight := none, ports := w.ports } ∧
      OnePort s w f.port (if f.discarded then s.port f.port
        else { s.port f.port with answers := (s.port f.port).answers ++ [⟨f.tag, f.answer⟩] })

/-! ### Resets -/

/-- R14, R34, R60, R92, R101, R122, R138, R148, R163, R176, R177: what POWER_ON leaves, whatever the state before. Three
clauses are the model's choice and no rule of the manual: RESET_N reads high after it (log 8, DESIGN CHOICE), the command
queue, the model's own, is kept (log 21), and a cleared sweep has the kind encoded 0 (log 18). -/
def Obligations.PowerOnSetsStartingValues : Prop :=
  ∀ (s : State) (rate1 rate0 : Bool), ∃ t, exec (.powerOn rate1 rate0) s = .next t ∧
    (∀ e, t.entry e = ⟨⟨false, 0, 0, 0, 0, 0, 0, 0, 0, false, 0⟩, 0⟩) ∧
    (∀ slot, t.slotCard slot = ⟨.blank, 0, 0, [], 0, 0, none⟩) ∧
    (∀ i, t.hold i = ⟨false, 0, .real 0, 0, 0, 0, 0, 0, false, 0⟩) ∧
    t.freeList = List.range 4096 ∧ t.expiry = [] ∧
    (∀ n : TrialId, t.card (.trial n) = ⟨.active, 10000, 0, [], 0, 0, none⟩ ∧ t.trialBases[n] = 10000) ∧
    t.lastGranted = 8 ∧ t.inFlight = none ∧ t.nextGrant = none ∧
    (∀ u, t.sweep u = ⟨false, .search 0 0 .any .any 0 false, 0, 0, ⟨0, false, 0, 0, 0, 0, 0, 0, 0, 0⟩, ⟨0, 0, 0⟩⟩) ∧
    t.accounts = ⟨⟨0, 0, 0, 0, 0, 0⟩, ⟨0, 0, 0, 0, 0, 0⟩, ⟨0, 0, 0, 0, 0, 0⟩, .opened, 1, [], 30⟩ ∧
    t.clock = ⟨0, .tick, 0, 0⟩ ∧
    (∀ p, t.port p =
      ⟨if p = 0 then .office else .till, .normal, .active, 0, 0, 20, .drop, [], [], [], .hunt, 0, none⟩) ∧
    (∀ p, t.waitLevel p = false ∧ t.attnLevel p = false) ∧
    t.lineRate = (match rate1, rate0 with
      | false, false => .b9600
      | false, true => .b19200
      | true, false => .b38400
      | true, true => .b115200) ∧
    t.resetLow = false ∧ t.pending = s.pending

/-- R15, R35, R61, R92, R101, R122, R139, R148, R163, R176: what an assertion of RESET_N keeps and clears, in a state
whose tables are in their canonical form. -/
def Obligations.ResetLineKeepsAndClears : Prop :=
  ∀ s : State, s.resetLow = false → TablesOk s → ∃ t, exec .resetNAssert s = .next t ∧
    (∀ e, t.entry e = { s.entry e with openHolds := 0 }) ∧
    (∀ slot, t.slotCard slot = { s.slotCard slot with held := 0, chain := [] }) ∧
    (∀ i, t.hold i = if (s.hold i).isOpen then
      { s.hold i with isOpen := false, generation := (s.hold i).generation + 1 } else s.hold i) ∧
    (∃ freed, t.freeList = s.freeList ++ freed ∧ freed.Pairwise (· < ·) ∧
      ∀ i, i ∈ freed ↔ (s.hold i).isOpen = true) ∧
    t.expiry = [] ∧
    (∀ n : TrialId, t.card (.trial n) = { s.card (.trial n) with value := s.trialBases[n], held := 0, chain := [] }) ∧
    t.lastGranted = 8 ∧ t.inFlight = none ∧
    (∀ u, t.sweep u = { s.sweep u with running := false }) ∧
    t.accounts = (match s.accounts.close with
      | .opened => s.accounts
      | .closing _ _ _ => { s.accounts with
          current := s.accounts.current.add s.accounts.next, next := .zero, close := .opened }) ∧
    (∀ p, t.port p = ⟨(s.port p).role, .normal, .active, 0, 0, (s.port p).timeout, (s.port p).recovery, [], [], [],
      .hunt, 0, none⟩) ∧
    (∀ p, t.waitLevel p = false ∧ t.attnLevel p = false) ∧
    t = { s with
      resetLow := true, series := t.series, cards := t.cards, holds := t.holds, freeList := t.freeList, expiry := [],
      trialCards := t.trialCards, lastGranted := 8, inFlight := none, sweeps := t.sweeps, accounts := t.accounts,
      ports := t.ports }

/-- R163, R177: at the release of RESET_N the straps are sampled and every receiver starts in HUNT; nothing else changes.
An assertion while it is low and a release while it is high are no edges and change nothing (log 8). -/
def Obligations.ResetReleaseSamplesStraps : Prop :=
  ∀ (s : State) (rate1 rate0 : Bool),
    (s.resetLow = true → ∃ t, exec (.resetNRelease rate1 rate0) s = .next t ∧
      (∀ p, t.port p = { s.port p with receiver := .hunt, gap := 0 }) ∧
      t = { s with
        resetLow := false, lineRate := LineRate.ofStraps rate1 rate0, ports := t.ports }) ∧
    (s.resetLow = true → exec .resetNAssert s = .next s) ∧
    (s.resetLow = false → exec (.resetNRelease rate1 rate0) s = .next s)

/-! ### Device time and the window -/

/-- R86 to R89: a TICK edge is a second event while TICK is selected, the divider's reaching the divisor while the divided
clock is; a second event raises device time by one, saturating, and the window comparison follows it; an edge of the base
not selected changes nothing. DIVIDER_SECOND as all the remaining REFCLK edges is log 4. -/
def Obligations.SecondEventsRaiseDeviceTime : Prop :=
  ∀ s : State,
    let now := if s.clock.time < 4294967295 then s.clock.time + 1 else s.clock.time
    (s.clock.base = .tick →
      exec .tickSecond s = .next ({ s with clock := { s.clock with time := now } } : State).windowCheck ∧
      exec .dividerSecond s = .next s ∧ s.refclkEdge = s) ∧
    (s.clock.base = .divided →
      exec .tickSecond s = .next s ∧
      exec .dividerSecond s = .next ({ s with clock := { s.clock with time := now, divider := 0 } } : State).windowCheck ∧
      (s.clock.divider + 1 < s.clock.divisor →
        s.refclkEdge = { s with clock := { s.clock with divider := s.clock.divider + 1 } }) ∧
      (s.clock.divisor ≤ s.clock.divider + 1 →
        s.refclkEdge = ({ s with clock := { s.clock with time := now, divider := 0 } } : State).windowCheck))

/-- R130, R132, R134, R158: WINDOW_EXPIRY drops a pending close when device time is at or after its deadline, with a
CLOSE-DROPPED notice of cause WINDOW to its owner; otherwise it changes nothing. -/
def Obligations.WindowExpiryDropsTheClose : Prop :=
  ∀ s : State, exec .windowExpiry s = .next s.windowCheck ∧
    (s.accounts.close = .opened → s.windowCheck = s) ∧
    ∀ owner frozen deadline, s.accounts.close = .closing owner frozen deadline →
      (s.clock.time < deadline → s.windowCheck = s) ∧
      (deadline ≤ s.clock.time →
        let t := s.windowCheck
        OnePort s t owner { s.port owner with
          notices := pushNotice (.closeDropped s.accounts.day .window) (s.port owner).notices } ∧
        t.accounts = { s.accounts with
          current := s.accounts.current.add s.accounts.next, next := .zero, close := .opened } ∧
        t.inFlight = s.inFlight.map (fun f => { f with before := { f.before with close := none } }) ∧
        t = { s with accounts := t.accounts, ports := t.ports, inFlight := t.inFlight })

/-- R94, R95, R46, R13, R19: an expiry grant frees the head of the expiry list, writes the card's last activity EXPIRY and
queues HOLD-EXPIRED to the owner port; value, accounts and everything else stay. -/
def Obligations.LapseFreesTheHead : Prop :=
  ∀ (s : State) (i : Nat) (rest : List Nat), s.nextGrant = some .expiry → s.expiry = i :: rest →
    let h := s.hold i
    let c := s.card h.card
    ∃ w, exec .lapse s = .next w ∧
      OneHold s w i { h with isOpen := false, generation := h.generation + 1 } ∧
      OneCard s w h.card { c with
        held := c.held - h.amount, chain := c.chain.erase i,
        last := some ⟨h.owner, h.till, s.clock.time, .expiry⟩ } ∧
      DriftsFollow s w h.card ∧ CountMoves s w h.card (· - 1) ∧
      w.freeList = s.freeList ++ [i] ∧ w.expiry = rest ∧
      OnePort s w h.owner { s.port h.owner with
        notices := pushNotice (.holdExpired (holdTag i h.generation) (s.noticeCard h.card) h.amount h.till)
          (s.port h.owner).notices } ∧
      w = { s with
        lastGranted := 6, cards := w.cards, trialCards := w.trialCards, sweeps := w.sweeps, holds := w.holds,
        freeList := w.freeList, expiry := w.expiry, series := w.series, ports := w.ports }

/-! ### Sweep steps -/

/-- R108 to R111: a SEARCH step counts its slot and moves the cursor, judges the slot by its state and the two criteria,
and ends with HIT, BLOCKED-END, MISS or LIMIT. -/
def Obligations.SearchStepJudgesItsSlot : Prop :=
  (∀ (figure operand : Nat), (Relation.eq.holds figure operand = true ↔ figure = operand) ∧
    (Relation.le.holds figure operand = true ↔ figure ≤ operand) ∧
    (Relation.ge.holds figure operand = true ↔ operand ≤ figure)) ∧
  (∀ (c : Card) (day operand : Nat) (rel : Relation),
    Criterion.any.met c day = true ∧
    (Criterion.figure .value rel operand).met c day = rel.holds c.value operand ∧
    (Criterion.figure .available rel operand).met c day = rel.holds (c.value - c.held) operand ∧
    (Criterion.figure .held rel operand).met c day = rel.holds c.held operand ∧
    (Criterion.figure .usesToday rel operand).met c day = rel.holds (if c.useDay = day then c.uses else 0) operand ∧
    (c.last = none → (Criterion.figure .lastTime rel operand).met c day = false) ∧
    ∀ a, c.last = some a → (Criterion.figure .lastTime rel operand).met c day = rel.holds a.time operand) ∧
  ∀ (s : State) (u : UnitId) (start stop : Nat) (critA critB : Criterion) (limit : Nat) (skip : Bool),
    s.nextSweep = some u → (s.sweep u).params = .search start stop critA critB limit skip →
    let w := s.sweep u
    let c := s.slotCard w.cursor
    let meets := critA.met c s.accounts.day = true ∧ critB.met c s.accounts.day = true
    let most := if limit = 0 then 65536 else limit
    let swept (seen : Bool) : State := (s.grantTo (.sweep u)).modifySweep u fun _ =>
      { w with
        cursor := w.cursor + 1
        results := { w.results with examined := w.results.examined + 1, blockedSeen := seen } }
    let passes (seen : Bool) : Prop :=
      (w.cursor = stop → exec .searchStep s = .next ((swept seen).endSweep u .miss none)) ∧
      (w.cursor ≠ stop → most ≤ w.results.examined + 1 →
        exec .searchStep s = .next ((swept seen).endSweep u .limit (some (w.cursor + 1)))) ∧
      (w.cursor ≠ stop → w.results.examined + 1 < most → exec .searchStep s = .next (swept seen))
    (c.state = .blank ∨ c.state = .retired → passes w.results.blockedSeen) ∧
    (c.state = .blocked → skip = true → passes true) ∧
    (c.state = .blocked → skip = false →
      exec .searchStep s = .next ((swept w.results.blockedSeen).endSweep u .blockedEnd (some w.cursor))) ∧
    (c.state = .active → meets →
      exec .searchStep s = .next ((swept w.results.blockedSeen).endSweep u .hit (some w.cursor))) ∧
    (c.state = .active → ¬meets → passes w.results.blockedSeen)

/-- R112, R114: a TALLY step adds the contribution of its slot to the sums and moves the cursor; the step of the end slot
ends the sweep. -/
def Obligations.TallyStepAddsTheContribution : Prop :=
  ∀ (s : State) (u : UnitId) (start stop : Nat),
    s.nextSweep = some u → (s.sweep u).params = .tally start stop →
    let w := s.sweep u
    let c := s.slotCard w.cursor
    let issued := c.state = .active ∨ c.state = .blocked
    let swept (value held : Word64) (count : Nat) : State := (s.grantTo (.sweep u)).modifySweep u fun _ =>
      { w with
        cursor := w.cursor + 1
        results := { w.results with
          valueSum := w.results.valueSum + value
          heldSum := w.results.heldSum + held
          cardCount := w.results.cardCount + count } }
    let ends (t : State) : Prop :=
      exec .tallyStep s = .next (if w.cursor = stop then t.endSweep u .done none else t)
    (issued → ends (swept (BitVec.ofNat 64 c.value) (BitVec.ofNat 64 c.held) 1)) ∧ (¬issued → ends (swept 0 0 0))

/-- R116, R117, R19: a PURGE step frees the hold at its index as a release when the hold is OPEN, of the purge's owner port
and of its till if one is given; it passes any other; the cursor moves, and the step of index 4,095 ends the sweep. -/
def Obligations.PurgeStepFreesAMatch : Prop :=
  ∀ (s : State) (u : UnitId) (owner : PortId) (till : Option TillId),
    s.nextSweep = some u → (s.sweep u).params = .purge owner till →
    let x := s.sweep u
    let i := x.cursor
    let h := s.hold i
    let c := s.card h.card
    let matching := h.isOpen = true ∧ h.owner = owner ∧ (till = none ∨ till = some h.till)
    let ends (t : State) : Prop := exec .purgeStep s = .next (if i + 1 < 4096 then t else t.endSweep u .done none)
    (¬matching → ends ((s.grantTo (.sweep u)).modifySweep u fun _ => { x with cursor := i + 1 })) ∧
    (matching → ∃ w, ends w ∧
      w.sweep u = { x with
        cursor := i + 1
        results := { x.results with
          freedCount := x.results.freedCount + 1
          freedAmount := x.results.freedAmount + BitVec.ofNat 64 h.amount } } ∧
      (∀ v, v ≠ u → w.sweep v = afterChange (s.sweep v) h.card c (w.card h.card)) ∧
      OneHold s w i { h with isOpen := false, generation := h.generation + 1 } ∧
      OneCard s w h.card { c with
        held := c.held - h.amount, chain := c.chain.erase i,
        last := some ⟨h.owner, h.till, s.clock.time, .release⟩ } ∧
      CountMoves s w h.card (· - 1) ∧ w.freeList = s.freeList ++ [i] ∧ w.expiry = s.expiry.erase i ∧
      w = { s with
        lastGranted := (Claimant.sweep u).position, cards := w.cards, trialCards := w.trialCards, sweeps := w.sweeps,
        holds := w.holds, freeList := w.freeList, expiry := w.expiry, series := w.series })

/-- R120, R22, R123: an ISSUE-RUN step issues a BLANK slot and reports the issue, skips any other, moves the cursor by the
stride, and ends the sweep where the next slot would lie beyond the end slot. -/
def Obligations.IssueRunStepIssuesABlankSlot : Prop :=
  ∀ (s : State) (u : UnitId) (start stop stride value : Nat),
    s.nextSweep = some u → (s.sweep u).params = .issueRun start stop stride value →
    let x := s.sweep u
    let slot := x.cursor
    let c := s.slotCard slot
    let ends (t : State) : Prop :=
      exec .issueRunStep s = .next (if stop < slot + stride then t.endSweep u .done none else t)
    (c.state ≠ .blank → ends ((s.grantTo (.sweep u)).modifySweep u fun _ =>
      { x with cursor := slot + stride, results := { x.results with skippedCount := x.results.skippedCount + 1 } })) ∧
    (c.state = .blank → ∃ w, ends w ∧
      w.sweep u = { x with
        cursor := slot + stride
        results := { x.results with
          issuedCount := x.results.issuedCount + 1
          valueIssued := x.results.valueIssued + value } } ∧
      (∀ v, v ≠ u → w.sweep v = afterChange (s.sweep v) (.real slot) c (w.card (.real slot))) ∧
      OneCard s w (.real slot) { c with state := .active, value := value } ∧
      w.accounts = afterMovement s.accounts (.real slot) { Figures.zero with issued := BitVec.ofNat 64 value } ∧
      w = { s with
        lastGranted := (Claimant.sweep u).position, cards := w.cards, sweeps := w.sweeps, accounts := w.accounts })

/-- R104, R105, R111, R114, R117, R120, R171: the end of a sweep makes its unit IDLE and queues SWEEP-DONE to its starting
port, after HOLDS-PURGED to the purged owner port when a PURGE freed at least one hold; nothing else changes. How any
notice joins a notice queue: with fewer than 16 entries at the tail with its mark clear, with 16 in the youngest place with
that place's mark set, the 15 older entries as they were. -/
def Obligations.SweepEndQueuesItsNotices : Prop :=
  (∀ (n : Notice) (queue : List NoticeEntry), queue.length < 16 → pushNotice n queue = queue ++ [⟨n, false⟩]) ∧
  (∀ (n : Notice) (older : List NoticeEntry) (youngest : NoticeEntry), older.length = 15 →
    pushNotice n (older ++ [youngest]) = older ++ [⟨n, true⟩]) ∧
  ∀ (s : State) (u : UnitId) (reason : SweepReason) (slot : Option Nat),
    let x := s.sweep u
    let t := s.endSweep u reason slot
    let report : SweepReport :=
      match x.params with
      | .search _ _ _ _ _ _ => .search slot x.results.examined x.results.blockedSeen
      | .tally _ _ => .tally x.results.valueSum x.results.heldSum x.results.cardCount x.drift s.clock.time
      | .purge _ _ => .purge x.results.freedCount x.results.freedAmount
      | .issueRun _ _ _ _ => .issueRun x.results.issuedCount x.results.skippedCount x.results.valueIssued
    let purged (q : PortId) : List NoticeEntry :=
      match x.params with
      | .purge owner _ =>
        if 0 < x.results.freedCount ∧ owner = q then
          pushNotice (.holdsPurged x.results.freedCount x.results.freedAmount) (s.port q).notices
        else (s.port q).notices
      | _ => (s.port q).notices
    t.sweep u = { x with running := false } ∧ (∀ v, v ≠ u → t.sweep v = s.sweep v) ∧
    (∀ q, t.port q = { s.port q with
      notices := if x.startPort = q then pushNotice (.sweepDone u reason x.cursor report) (purged q) else purged q }) ∧
    t = { s with sweeps := t.sweeps, ports := t.ports }

/-! ### The line of a port -/

/-- R149, R163: the receiver's stages, for each of the rows that carry a byte; while RESET_N is low the byte is
discarded. That the stage decides which row the byte is, is log 2. -/
def Obligations.ReceiverStagesTakeBytes : Prop :=
  ∀ (s : State) (p : PortId) (b : Byte) (c : Instr),
    c ∈ [Instr.byteReceived p b, .frameReceived p b, .idle p b, .badLength p b, .idleRecovery p b] →
    let takes (r : Receiver) : Prop := ∃ w, exec c s = .next w ∧
      OnePort s w p { s.port p with receiver := r, gap := 0 } ∧ w = { s with ports := w.ports }
    (s.resetLow = true → exec c s = .next s) ∧
    (s.resetLow = false →
      ((s.port p).receiver = .hunt → b ≠ 0xC5 → exec c s = .next s) ∧
      ((s.port p).receiver = .hunt → b = 0xC5 → takes .length) ∧
      ((s.port p).receiver = .length → 2 ≤ b.toNat → b.toNat ≤ 60 → takes (.body b.toNat [])) ∧
      (∀ n got, (s.port p).receiver = .body n got → got.length + 1 < n → takes (.body n (got ++ [b]))) ∧
      (∀ n got, (s.port p).receiver = .body n got → n ≤ got.length + 1 → takes (.check (got ++ [b]) none)) ∧
      ∀ body, (s.port p).receiver = .check body none → takes (.check body (some b)))

/-- R151, R164, R165, R167, R170: a length byte outside 2..60 and a CRC mismatch are link errors, the receiver back in HUNT;
a link error raises the count by 8 with the health it gives, puts the port in OFF past 255, and in OFF sets the IDLE run
to 0. A count change queues PORT-STATE when the health state changes. -/
def Obligations.LinkErrorsAreCounted : Prop :=
  ∀ (s : State) (p : PortId) (b : Byte),
    let hunting : State := s.modifyPort p fun port => { port with receiver := .hunt, gap := 0 }
    (s.resetLow = false → (s.port p).receiver = .length → b.toNat < 2 ∨ 60 < b.toNat →
      exec (.badLength p b) s = .next (hunting.linkError p)) ∧
    (∀ body high, s.resetLow = false → (s.port p).receiver = .check body (some high) →
      ¬(high = highByte (frameCrc body) ∧ b = lowByte (frameCrc body)) →
      exec (.frameReceived p b) s = .next (hunting.linkError p)) ∧
    ((s.port p).health = .off →
      s.linkError p = s.modifyPort p fun port => { port with idleRun := 0 }) ∧
    ((s.port p).health ≠ .off → 255 < (s.port p).errorCount + 8 → s.linkError p = s.enterOff p) ∧
    ((s.port p).health ≠ .off → (s.port p).errorCount + 8 ≤ 255 →
      s.linkError p = s.setCount p ((s.port p).errorCount + 8) .errors) ∧
    ∀ count cause,
      let t := s.setCount p count cause
      let before := (s.port p).health
      let after : Health := if count ≤ 95 then .active else if count ≤ 127 then .warned else .muted
      OnePort s t p { s.port p with
        errorCount := count, health := after,
        notices := if before = after then (s.port p).notices
          else pushNotice (.portState p before after count cause) (s.port p).notices } ∧
      t = { s with ports := t.ports }

/-- R152 to R155, R163, R164, R166, R172: when a request queue is full and the levels of WAIT and ATTN; and a complete frame
with a matching CRC at a port below OFF: the checks in their order, which role permits which kind at arrival, a refusal
with its answer and count, and the intake of a request that passes them. That a TILL port's PORT-STATUS with any port byte
but its own number is refused NOT-PERMITTED, one above 5 too, is the model's reading (log 14, DEDUCED). -/
def Obligations.FrameIsJudgedInOrder : Prop :=
  (∀ (s : State) (p : PortId),
    (s.waitLevel p = true ↔ s.resetLow = false ∧ (4 ≤ (s.port p).requests.length ∨ 8 ≤ s.takenPlaces p)) ∧
    (s.attnLevel p = true ↔ s.resetLow = false ∧ (s.port p).notices ≠ [])) ∧
  ∀ (s : State) (p : PortId) (b high : Byte) (body : List Byte),
    s.resetLow = false → (s.port p).receiver = .check body (some high) →
    high = highByte (frameCrc body) → b = lowByte (frameCrc body) → (s.port p).health ≠ .off →
    let t : State := s.modifyPort p fun port => { port with receiver := .hunt, gap := 0 }
    let tag := body.headD 0
    let kindByte := (body.drop 1).headD 0
    let fields := body.drop 2
    let count := (s.port p).errorCount
    let role := (s.port p).role
    let room := s.takenPlaces p < 8
    let full := 4 ≤ (s.port p).requests.length ∨ ¬room
    let permitted (k : Kind) : Prop :=
      if k ∈ [Kind.reserve, .renew, .capture, .release, .redeem, .load] then role = .till
      else if k ∈ [Kind.idle, .probe, .collect, .ident] then True
      else if k = .portStatus then role = .office ∨ (fields.headD 0).toNat = p.val
      else role = .office
    let refused (o : OutcomeCode) : Prop :=
      (255 ≤ count → exec (.frameReceived p b) s = .next (t.enterOff p)) ∧
      (count < 255 → ¬room → exec (.frameReceived p b) s = .next (t.setCount p (count + 1) .errors)) ∧
      (count < 255 → room →
        exec (.frameReceived p b) s = .next ((t.pushAnswer p tag (.plain o)).setCount p (count + 1) .errors))
    ¬(body.length = 2 ∧ kindByte = 0) →
    (kindOfByte kindByte = none → refused .badRequest) ∧
    ∀ k, kindOfByte kindByte = some k →
      (fields.length + 2 ≠ k.bodyLength → refused .badRequest) ∧
      (fields.length + 2 = k.bodyLength → ¬permitted k → refused .notPermitted) ∧
      (fields.length + 2 = k.bodyLength → permitted k →
        (requestOf k fields = none → refused .badRequest) ∧
        ∀ r, requestOf k fields = some r →
          (full → ¬room → exec (.frameReceived p b) s = .next t) ∧
          (full → room →
            exec (.frameReceived p b) s = .next (t.pushAnswer p tag (.plain .busy))) ∧
          (¬full →
            exec (.frameReceived p b) s = .next
              ((t.modifyPort p fun port => { port with requests := port.requests ++ [⟨tag, r⟩] }).setCount p (count - 1)
                .goodFrames)))

/-- R152 step 1, R164, R167, R170: a good IDLE frame lowers the count of a port below OFF; in OFF it raises the IDLE run
count, and the 64th in a row makes the port ACTIVE with count 0 and a PORT-STATE notice; any other frame with a matching
CRC sets the run back to 0. -/
def Obligations.IdleFramesRecoverAPort : Prop :=
  ∀ (s : State) (p : PortId) (b high : Byte) (body : List Byte),
    s.resetLow = false → (s.port p).receiver = .check body (some high) →
    high = highByte (frameCrc body) → b = lowByte (frameCrc body) →
    let t : State := s.modifyPort p fun port => { port with receiver := .hunt, gap := 0 }
    let idle := body.length = 2 ∧ (body.drop 1).headD 0 = 0
    let run := (s.port p).idleRun
    (idle → (s.port p).health ≠ .off →
      exec (.idle p b) s = .next (t.setCount p ((s.port p).errorCount - 1) .goodFrames)) ∧
    (idle → (s.port p).health = .off → run + 1 < 64 →
      exec (.idle p b) s = .next (t.modifyPort p fun port => { port with idleRun := run + 1 })) ∧
    (idle → (s.port p).health = .off → 64 ≤ run + 1 →
      exec (.idleRecovery p b) s = .next (t.modifyPort p fun port =>
        { port with
          errorCount := 0, health := .active, idleRun := 0
          notices := pushNotice (.portState p .off .active 0 .idleRecovery) port.notices })) ∧
    (¬idle → (s.port p).health = .off →
      exec (.frameReceived p b) s = .next (t.modifyPort p fun port => { port with idleRun := 0 }))

/-- R31, R131, R158, R166, R170: a port's entry to OFF, what STATUS reads of its drop of a close included: the drop shows
at once in a STATUS answered while a grant is in progress, where R158's list of the drops that do is read by log 9
(DEDUCED). -/
def Obligations.EntryToOffCutsThePortOff : Prop :=
  ∀ (s : State) (p : PortId),
    let t := s.enterOff p
    let n : Notice := .portState p (s.port p).health .off 255 .errors
    let owns := s.accounts.close.owner? = some p
    t.port p = { s.port p with
      errorCount := 255, health := .off, idleRun := 0, requests := [], answers := []
      notices := if owns then pushNotice (.closeDropped s.accounts.day .portOff) (pushNotice n (s.port p).notices)
        else pushNotice n (s.port p).notices } ∧
    (∀ q, q ≠ p → (s.port q).role = .office →
      t.port q = { s.port q with notices := pushNotice n (s.port q).notices }) ∧
    (∀ q, q ≠ p → (s.port q).role = .till → t.port q = s.port q) ∧
    t.inFlight = s.inFlight.map (fun f => { f with
      discarded := if f.port = p then true else f.discarded
      before := if owns then { f.before with close := none } else f.before }) ∧
    t.accounts = (if owns then { s.accounts with
      current := s.accounts.current.add s.accounts.next, next := .zero, close := .opened } else s.accounts) ∧
    t = { s with ports := t.ports, inFlight := t.inFlight, accounts := t.accounts }

/-- R149, R151: a gap in a frame that passes the time-out setting is a link error, followed by a port reset under RESET; a
gap at or below it, or any gap with the setting 0, changes only the gap under way; in HUNT, and while RESET_N is low,
nothing. A gap's length as an operand is log 6. -/
def Obligations.LinkTimeoutEndsTheFrame : Prop :=
  ∀ (s : State) (p : PortId) (gap : Nat),
    let g := max (s.port p).gap gap
    let port := s.port p
    (s.resetLow = true ∨ port.receiver = .hunt → exec (.linkTimeout p gap) s = .next s) ∧
    (s.resetLow = false → port.receiver ≠ .hunt →
      (port.timeout = 0 ∨ g ≤ port.timeout →
        exec (.linkTimeout p gap) s = .next (s.modifyPort p fun x => { x with gap := g })) ∧
      (port.timeout ≠ 0 → port.timeout < g →
        let t := (s.modifyPort p fun x => { x with receiver := .hunt, gap := 0 }).linkError p
        (port.recovery = .drop → exec (.linkTimeout p gap) s = .next t) ∧
        (port.recovery = .reset → exec (.linkTimeout p gap) s = .next (t.showDrop (t.portReset p)))))

/-- R156, R177, R179, R180: an idle transmitter begins the oldest answer, which leaves the queue; its bytes are its frames
back to back, each the start byte, the length, the body and the CRC; a body is the tag, the outcome's value and the fields
in their widths (`Answer.layout`), with the codes of 11.2 and 11.4 and the body lengths of 11.4 and 11.5, none above 60
bytes; only ACCOUNTS DONE and TRIAL-SET DONE are more than one frame; ANSWER_SENT leaves the transmitter idle. The model's
own are: the one frame of a TRIAL-IN-USE, which carries free bytes (log 11, DESIGN CHOICE), the order and widths of fields
that the manual leaves to prose (log 12, DEDUCED), and, of a trial card, bit 3 of the activity byte as 0 and an absent last
activity as zeros (log 22, DESIGN CHOICE). -/
def Obligations.TransmitterSendsTheOldestAnswer : Prop :=
  (∀ (s : State) (p : PortId),
    (∀ a rest, (s.port p).sending = none → (s.port p).answers = a :: rest →
      exec (.answerTransmitStart p) s = .next (s.modifyPort p fun port =>
        { port with
          answers := rest
          sending := some (a.answer.layout.2.flatMap fun fields =>
            let body := a.tag :: a.answer.layout.1 :: laidOut fields
            0xC5 :: BitVec.ofNat 8 body.length ::
              (body ++ [highByte (crc (BitVec.ofNat 8 body.length :: body)),
                lowByte (crc (BitVec.ofNat 8 body.length :: body))])) })) ∧
    ((s.port p).sending ≠ none ∨ (s.port p).answers = [] → exec (.answerTransmitStart p) s = .next s) ∧
    exec (.answerSent p) s = .next (s.modifyPort p fun port => { port with sending := none })) ∧
  (∀ a : Answer, a.layout.2.length ≠ 1 →
    (∃ lifetime current next day close records, a = .accounts lifetime current next day close records) ∨
      ∃ cards, a = .trialCards cards) ∧
  (∀ (a : Answer) (n : Nat), (∀ o, a ≠ .plain o) →
    (a.layout.1, n) ∈ [((0x07 : Byte), 12), (0x01, 15), (0x4F, 6), (0x02, 6), (0x03, 8), (0x55, 8), (0x04, 8), (0x05, 9),
      (0x06, 9), (0x56, 9)] →
    ∀ fields ∈ a.layout.2, (laidOut fields).length + 2 = n) ∧
  (∀ slot c available todaysUses tags, ∀ fields ∈ (Answer.cardRecord slot c available todaysUses tags).layout.2,
    (laidOut fields).length + 2 = 29 + 2 * tags.length) ∧
  (∀ n : Notice, (laidOut n.layout.2).length = match n with
    | .holdExpired _ _ _ _ => 14
    | .holdsPurged _ _ => 8
    | .sweepDone _ _ _ (.search _ _ _) => 6 + 7
    | .sweepDone _ _ _ (.tally _ _ _ _ _) => 6 + 35
    | .sweepDone _ _ _ (.purge _ _) => 6 + 8
    | .sweepDone _ _ _ (.issueRun _ _ _) => 6 + 12
    | .closeDropped _ _ => 3
    | .portState _ _ _ _ _ => 5) ∧
  (∀ a : Answer, (∀ slot c available todaysUses tags, a = .cardRecord slot c available todaysUses tags → tags.length ≤ 8) →
    (∀ free sweeps close day time, a = .status free sweeps close day time → sweeps.length = 2) →
    ∀ fields ∈ a.layout.2, (laidOut fields).length + 2 ≤ 60) ∧
  [OutcomeCode.done, .held, .renewed, .captured, .released, .redeemed, .loaded, .probed, .accepted, .cancelled, .closeReady,
    .closed, .notice, .none].map OutcomeCode.code = (List.range 14).map (BitVec.ofNat 8) ∧
  [OutcomeCode.busy, .badRequest, .notPermitted, .badField, .overlap, .seriesInUse, .unknownCard, .notBlank, .wrongState,
    .hasHolds, .portMuted, .notIssued, .cardBlocked, .cardRetired, .useLimit, .noFunds, .cardHoldsFull, .poolFull,
    .holdGone, .notYours, .renewLimit, .short, .atCeiling, .sweepsBusy, .notRunning, .closeBusy, .noClose, .notKept,
    .trialInUse, .lastOffice].map OutcomeCode.code = (List.range 30).map (fun n => BitVec.ofNat 8 (0x40 + n)) ∧
  [CardState.blank, .active, .blocked, .retired].map CardState.code = [0, 1, 2, 3] ∧
  [Health.active, .warned, .muted, .off].map Health.code = [0, 1, 2, 3] ∧
  [Role.till, .office].map Role.code = [0, 1] ∧ [Mode.normal, .trial].map Mode.code = [0, 1] ∧
  [Recovery.drop, .reset].map Recovery.code = [0, 1] ∧ [TimeBase.tick, .divided].map TimeBase.code = [0, 1] ∧
  [ActivityKind.reserve, .capture, .release, .redeem, .load, .expiry].map ActivityKind.code = [0, 1, 2, 3, 4, 5] ∧
  [SweepKind.search, .tally, .purge, .issueRun].map SweepKind.code = [0, 1, 2, 3] ∧
  [SweepReason.hit, .miss, .limit, .blockedEnd, .done, .cancelled].map SweepReason.code = [0, 1, 2, 3, 4, 5] ∧
  [DropCause.strayRequest, .window, .portReset, .portOff, .roleChange].map DropCause.code = [0, 1, 2, 3, 4] ∧
  [HealthCause.errors, .goodFrames, .idleRecovery, .restore].map HealthCause.code = [0, 1, 2, 3]

/-! ### Till requests -/

/-- R3 to R5, R21, R141: how a code reaches a card, which entry governs a slot, that the entry that resolves a code governs
the slot, how an office address is found, and the code formed from a slot. -/
def Obligations.CodesAndSlotsReachCards : Prop :=
  ∀ s : State,
    let takes (e : EntryId) (c : CardCode) : Prop := (s.entry e).fields.enabled = true ∧
      c.extractLsb' 20 28 &&& (s.entry e).fields.mask = (s.entry e).fields.matchBits &&& (s.entry e).fields.mask
    let spans (e : EntryId) (slot : Nat) : Prop := (s.entry e).fields.enabled = true ∧
      (s.entry e).fields.base ≤ slot ∧ slot < (s.entry e).fields.base + (s.entry e).fields.count
    (∀ c slot e, s.resolve c = some (slot, e) ↔
      takes e c ∧ (∀ o, o < e → ¬takes o c) ∧ c.toNat % 2 ^ 20 < (s.entry e).fields.count ∧
        slot = (s.entry e).fields.base + c.toNat % 2 ^ 20) ∧
    (∀ slot e, s.governing slot = some e ↔ spans e slot ∧ ∀ o, o < e → ¬spans o slot) ∧
    (SeriesOk s → ∀ c slot e, s.resolve c = some (slot, e) → s.governing slot = some e) ∧
    (∀ p c, (s.port p).mode = .trial → ∃ n : TrialId, n.val = c.toNat % 4 ∧
      s.target p c = some ⟨.trial n, ⟨99999, 120, 120, 0, true, 0⟩⟩) ∧
    (∀ p c, (s.port p).mode = .normal → s.resolve c = none → s.target p c = none) ∧
    (∀ p c slot e, (s.port p).mode = .normal → s.resolve c = some (slot, e) →
      s.target p c = some ⟨.real slot, (s.entry e).fields.rules⟩) ∧
    (∀ c, s.locate (.code c) = s.resolve c) ∧
    (∀ slot, s.locate (.slot slot) = (s.governing slot).map fun e => (slot, e)) ∧
    ∀ slot e, s.governing slot = some e →
      (s.codeOfSlot slot).extractLsb' 20 28 = (s.entry e).fields.matchBits &&& (s.entry e).fields.mask ∧
      (s.codeOfSlot slot).toNat % 2 ^ 20 = (slot - (s.entry e).fields.base) % 2 ^ 20

/-- R66, R67, R142: PROBE answers UNKNOWN-CARD or five figures, and changes nothing beyond its grant's start. -/
def Obligations.ProbeReportsTheCard : Prop :=
  ∀ (s s1 : State) (p : PortId) (tag : Byte) (code : CardCode), Granted s p tag (.probe code) s1 →
    (s1.target p code = none → exec .probe s = .next (s1.answering s p tag (.plain .unknownCard))) ∧
    ∀ t, s1.target p code = some t →
      let c := s1.card t.ref
      let today := if c.useDay = s1.accounts.day then c.uses else 0
      exec .probe s = .next (s1.answering s p tag (.probed t.ref.isTrial c.state c.value (c.value - c.held)
        c.chain.length (if t.rules.useLimit = 0 then 255 else t.rules.useLimit - today)))

/-- R50, R53, R63, R75, R78, R20: the refusals of RESERVE, REDEEM and LOAD in their order; a refused request changes
nothing. -/
def Obligations.SalesAreRefusedInOrder : Prop :=
  ∀ (s s1 : State) (p : PortId) (tag : Byte) (r : Request) (c : Instr) (code : CardCode), Granted s p tag r s1 →
    let refuses (a : Answer) : Prop := exec c s = .next (s1.answering s p tag a)
    let firstThree : Prop :=
      ((s1.port p).health = .muted → refuses (.plain .portMuted)) ∧
      ((s1.port p).health ≠ .muted →
        (s1.target p code = none → refuses (.plain .unknownCard)) ∧
        ∀ t, s1.target p code = some t →
          ((s1.card t.ref).state = .blank → refuses (.plain .notIssued)) ∧
          ((s1.card t.ref).state = .blocked → refuses (.plain .cardBlocked)) ∧
          ((s1.card t.ref).state = .retired → refuses (.plain .cardRetired)))
    let nextTwo (asked : Nat) (flag : Bool) : Prop :=
      ∀ t, (s1.port p).health ≠ .muted → s1.target p code = some t → (s1.card t.ref).state = .active →
        let available := (s1.card t.ref).value - (s1.card t.ref).held
        (¬UseAllowed t.rules.useLimit (s1.card t.ref) s1.accounts.day → refuses (.plain .useLimit)) ∧
        (UseAllowed t.rules.useLimit (s1.card t.ref) s1.accounts.day →
          available = 0 ∨ (available < asked ∧ (flag && t.rules.partialAllowed) = false) →
          refuses (.noFunds t.ref.isTrial available))
    (∀ till asked flag long, r = .reserve code till asked flag long → c = .reserve →
      firstThree ∧ nextTwo asked flag ∧
      ∀ t amount, (s1.port p).health ≠ .muted → s1.target p code = some t → (s1.card t.ref).state = .active →
        UseAllowed t.rules.useLimit (s1.card t.ref) s1.accounts.day →
        AmountFound ((s1.card t.ref).value - (s1.card t.ref).held) asked (flag && t.rules.partialAllowed) amount →
        (8 ≤ (s1.card t.ref).chain.length → refuses (.plain .cardHoldsFull)) ∧
        ((s1.card t.ref).chain.length < 8 → s1.freeList = [] → refuses (.plain .poolFull))) ∧
    (∀ till asked flag, r = .redeem code till asked flag → c = .redeem → firstThree ∧ nextTwo asked flag) ∧
    (∀ till asked, r = .load code till asked → c = .load →
      firstThree ∧
      ∀ t, (s1.port p).health ≠ .muted → s1.target p code = some t → (s1.card t.ref).state = .active →
        t.rules.ceiling ≤ (s1.card t.ref).value →
        refuses (.atCeiling t.ref.isTrial (s1.card t.ref).value t.rules.ceiling))

/-- R45, R51 to R53, R18, R13, R43, R142, R143: a RESERVE that passes its checks opens a hold at the head of the free list,
counts a use and writes last activity, and answers HELD; the value, the accounts and everything else stay. -/
def Obligations.ReserveOpensAHold : Prop :=
  ∀ (s s1 : State) (p : PortId) (tag : Byte) (code : CardCode) (till : TillId) (asked : Nat) (flag long : Bool)
    (t : Target) (amount i : Nat) (rest : List Nat),
    Granted s p tag (.reserve code till asked flag long) s1 →
    (s1.port p).health ≠ .muted → s1.target p code = some t → (s1.card t.ref).state = .active →
    UseAllowed t.rules.useLimit (s1.card t.ref) s1.accounts.day →
    AmountFound ((s1.card t.ref).value - (s1.card t.ref).held) asked (flag && t.rules.partialAllowed) amount →
    (s1.card t.ref).chain.length < 8 → s1.freeList = i :: rest →
    let c := s1.card t.ref
    let now := s1.clock.time
    let deadline := min (now + if long then t.rules.longLifetime else t.rules.shortLifetime) 4294967295
    ∃ w, exec .reserve s = .next (w.answering s p tag
        (.held t.ref.isTrial (holdTag i (s1.hold i).generation) amount (c.value - c.held - amount) deadline)) ∧
      OneHold s1 w i ⟨true, (s1.hold i).generation, t.ref, p, till, amount, now, deadline, long, 0⟩ ∧
      OneCard s1 w t.ref { c with
        held := c.held + amount, chain := c.chain ++ [i], useDay := s1.accounts.day
        uses := usesAfter c s1.accounts.day, last := some ⟨p, till, now, .reserve⟩ } ∧
      DriftsFollow s1 w t.ref ∧ CountMoves s1 w t.ref (· + 1) ∧
      w.freeList = rest ∧ EnteredAt (fun j => (s1.hold j).deadline) i deadline s1.expiry w.expiry ∧
      w = { s1 with
        cards := w.cards, trialCards := w.trialCards, sweeps := w.sweeps, holds := w.holds, freeList := w.freeList,
        expiry := w.expiry, series := w.series }

/-- R40, R47, R56, R68, R70: how RENEW, CAPTURE and RELEASE are refused: HOLD-GONE, NOT-YOURS, RENEW-LIMIT and SHORT; a
refused request changes nothing. -/
def Obligations.TagsAreRefused : Prop :=
  ∀ (s s1 : State) (p : PortId) (tag : Byte) (i : Nat) (generation : BitVec 4) (final : Nat) (till : TillId), i < 4096 →
    let name := holdTag i generation
    let h := s1.hold i
    let named := h.isOpen = true ∧ h.generation = generation
    let refuses (c : Instr) (a : Answer) : Prop := exec c s = .next (s1.answering s p tag a)
    (Granted s p tag (.renew name) s1 →
      (¬named → refuses .renew (.plain .holdGone)) ∧ (named → h.owner ≠ p → refuses .renew (.plain .notYours)) ∧
      (named → h.owner = p → (∀ n, h.card = .trial n → refuses .renew (.plain .renewLimit)) ∧
        ∀ slot e, h.card = .real slot → s1.governing slot = some e → (s1.entry e).fields.renewLimit ≤ h.renewals →
          refuses .renew (.plain .renewLimit))) ∧
    (Granted s p tag (.capture name final till) s1 →
      (¬named → refuses .capture (.plain .holdGone)) ∧ (named → h.owner ≠ p → refuses .capture (.plain .notYours)) ∧
      (named → h.owner = p → h.amount < final →
        (s1.card h.card).value - (s1.card h.card).held < final - h.amount →
        refuses .capture (.short h.amount ((s1.card h.card).value - (s1.card h.card).held)))) ∧
    (Granted s p tag (.release name) s1 →
      (¬named → refuses .release (.plain .holdGone)) ∧ (named → h.owner ≠ p → refuses .release (.plain .notYours)))

/-- R57, R43: a RENEW that passes its checks writes the hold's deadline and renewals and moves it in the expiry list;
nothing else changes. -/
def Obligations.RenewMovesTheDeadline : Prop :=
  ∀ (s s1 : State) (p : PortId) (tag : Byte) (i : Nat) (slot : Nat) (e : EntryId), i < 4096 →
    Granted s p tag (.renew (holdTag i (s1.hold i).generation)) s1 →
    (s1.hold i).isOpen = true → (s1.hold i).owner = p → (s1.hold i).card = .real slot → s1.governing slot = some e →
    (s1.hold i).renewals < (s1.entry e).fields.renewLimit →
    let h := s1.hold i
    let f := (s1.entry e).fields
    let deadline := min (s1.clock.time + if h.long then f.longLifetime else f.shortLifetime) 4294967295
    ∃ w, exec .renew s = .next (w.answering s p tag (.renewed deadline)) ∧
      OneHold s1 w i { h with deadline := deadline, renewals := h.renewals + 1 } ∧
      EnteredAt (fun j => (s1.hold j).deadline) i deadline (s1.expiry.erase i) w.expiry ∧
      w = { s1 with holds := w.holds, expiry := w.expiry }

/-- R69 to R72, R46, R64, R143: an accepted CAPTURE, at, below or above its hold's amount. -/
def Obligations.CaptureCompletesASale : Prop :=
  ∀ (s s1 : State) (p : PortId) (tag : Byte) (i final : Nat) (till : TillId), i < 4096 →
    Granted s p tag (.capture (holdTag i (s1.hold i).generation) final till) s1 →
    (s1.hold i).isOpen = true → (s1.hold i).owner = p →
    let h := s1.hold i
    let c := s1.card h.card
    final ≤ h.amount ∨ final - h.amount ≤ c.value - c.held →
    ∃ w, exec .capture s = .next (w.answering s p tag (.captured final (c.value - final))) ∧
      OneHold s1 w i { h with isOpen := false, generation := h.generation + 1 } ∧
      OneCard s1 w h.card { c with
        value := c.value - final, held := c.held - h.amount, chain := c.chain.erase i
        last := some ⟨p, till, s1.clock.time, .capture⟩ } ∧
      DriftsFollow s1 w h.card ∧ CountMoves s1 w h.card (· - 1) ∧
      w.freeList = s1.freeList ++ [i] ∧ w.expiry = s1.expiry.erase i ∧
      w.accounts = afterMovement s1.accounts h.card
        { Figures.zero with captured := BitVec.ofNat 64 final, captureCount := 1 } ∧
      w = { s1 with
        cards := w.cards, trialCards := w.trialCards, sweeps := w.sweeps, holds := w.holds, freeList := w.freeList,
        expiry := w.expiry, series := w.series, accounts := w.accounts }

/-- R73, R46, R143: an accepted RELEASE returns the held amount; no value moves and nothing is reported. -/
def Obligations.ReleaseReturnsTheHold : Prop :=
  ∀ (s s1 : State) (p : PortId) (tag : Byte) (i : Nat), i < 4096 →
    Granted s p tag (.release (holdTag i (s1.hold i).generation)) s1 →
    (s1.hold i).isOpen = true → (s1.hold i).owner = p →
    let h := s1.hold i
    let c := s1.card h.card
    ∃ w, exec .release s = .next (w.answering s p tag (.released h.amount (c.value - (c.held - h.amount)))) ∧
      OneHold s1 w i { h with isOpen := false, generation := h.generation + 1 } ∧
      OneCard s1 w h.card { c with
        held := c.held - h.amount, chain := c.chain.erase i, last := some ⟨p, h.till, s1.clock.time, .release⟩ } ∧
      DriftsFollow s1 w h.card ∧ CountMoves s1 w h.card (· - 1) ∧
      w.freeList = s1.freeList ++ [i] ∧ w.expiry = s1.expiry.erase i ∧
      w = { s1 with
        cards := w.cards, trialCards := w.trialCards, sweeps := w.sweeps, holds := w.holds, freeList := w.freeList,
        expiry := w.expiry, series := w.series }

/-- R76, R77, R18, R64, R142: an accepted REDEEM takes the amount found, counts a use, reports the movement of a REAL card
and answers REDEEMED; holds and everything else stay. -/
def Obligations.RedeemTakesValue : Prop :=
  ∀ (s s1 : State) (p : PortId) (tag : Byte) (code : CardCode) (till : TillId) (asked : Nat) (flag : Bool) (t : Target)
    (amount : Nat),
    Granted s p tag (.redeem code till asked flag) s1 →
    (s1.port p).health ≠ .muted → s1.target p code = some t → (s1.card t.ref).state = .active →
    UseAllowed t.rules.useLimit (s1.card t.ref) s1.accounts.day →
    AmountFound ((s1.card t.ref).value - (s1.card t.ref).held) asked (flag && t.rules.partialAllowed) amount →
    let c := s1.card t.ref
    ∃ w, exec .redeem s = .next (w.answering s p tag (.redeemed t.ref.isTrial amount (c.value - amount))) ∧
      OneCard s1 w t.ref { c with
        value := c.value - amount, useDay := s1.accounts.day, uses := usesAfter c s1.accounts.day
        last := some ⟨p, till, s1.clock.time, .redeem⟩ } ∧
      DriftsFollow s1 w t.ref ∧
      w.accounts = afterMovement s1.accounts t.ref
        { Figures.zero with captured := BitVec.ofNat 64 amount, captureCount := 1 } ∧
      w = { s1 with cards := w.cards, trialCards := w.trialCards, sweeps := w.sweeps, accounts := w.accounts }

/-- R79, R80, R64, R142: an accepted LOAD applies the amount asked, cut to the room below the ceiling, and answers LOADED
with SHORT-APPLIED when it was cut. -/
def Obligations.LoadAddsValue : Prop :=
  ∀ (s s1 : State) (p : PortId) (tag : Byte) (code : CardCode) (till : TillId) (asked : Nat) (t : Target),
    Granted s p tag (.load code till asked) s1 →
    (s1.port p).health ≠ .muted → s1.target p code = some t → (s1.card t.ref).state = .active →
    (s1.card t.ref).value < t.rules.ceiling →
    let c := s1.card t.ref
    let applied := min asked (t.rules.ceiling - c.value)
    ∃ w, exec .load s = .next (w.answering s p tag
        (.loaded t.ref.isTrial (decide (applied < asked)) applied (c.value + applied))) ∧
      OneCard s1 w t.ref { c with value := c.value + applied, last := some ⟨p, till, s1.clock.time, .load⟩ } ∧
      DriftsFollow s1 w t.ref ∧
      w.accounts = afterMovement s1.accounts t.ref { Figures.zero with loaded := BitVec.ofNat 64 applied } ∧
      w = { s1 with cards := w.cards, trialCards := w.trialCards, sweeps := w.sweeps, accounts := w.accounts }

/-! ### Port-local requests -/

/-- R156, R173: COLLECT at the head of a port's queue, no request of the port in flight: the oldest notice leaves the queue
in the answer, or NONE. -/
def Obligations.CollectTakesTheOldestNotice : Prop :=
  ∀ (s : State) (p : PortId) (tag : Byte) (rest : List QueuedRequest),
    (s.port p).requests = ⟨tag, .collect⟩ :: rest →
    (s.inFlightAt p = true → exec (.collect p) s = .next s) ∧
    (s.inFlightAt p = false →
      ((s.port p).notices = [] → exec (.collect p) s = .next (s.modifyPort p fun port =>
        { port with requests := rest, answers := port.answers ++ [⟨tag, .plain .none⟩] })) ∧
      ∀ e left, (s.port p).notices = e :: left → exec (.collect p) s = .next (s.modifyPort p fun port =>
        { port with
          requests := rest, notices := left
          answers := port.answers ++ [⟨tag, .notice e.notice e.overrun left.length⟩] }))

/-- R153, R156 to R158: STATUS, PORT-STATUS and IDENT at the head of a port's queue, no request of the port in flight. The
level of WAIT a PORT-STATUS reports of its own port is a free value between the two levels that the manual leaves open
(log 10). -/
def Obligations.PortsAnswerTheirOwnRequests : Prop :=
  ∀ (s : State) (p : PortId) (tag : Byte) (r : Request) (rest : List QueuedRequest),
    (s.port p).requests = ⟨tag, r⟩ :: rest → s.inFlightAt p = false →
    let answered (a : Answer) : State := s.modifyPort p fun port =>
      { port with requests := rest, answers := port.answers ++ [⟨tag, a⟩] }
    (r = .ident → exec (.ident p) s = .next (answered .identity)) ∧
    (r = .status → (s.port p).role = .till → exec (.status p) s = .next (answered (.plain .notPermitted))) ∧
    (r = .status → (s.port p).role = .office →
      (s.inFlight = none → exec (.status p) s = .next (answered (.status s.freeList.length
        (s.sweeps.toList.map fun w => if w.running then some w.params.kind else none) s.accounts.close.owner?
        s.accounts.day s.clock.time))) ∧
      ∀ f, s.inFlight = some f → exec (.status p) s = .next (answered (.status f.before.freeHolds f.before.sweeps
        f.before.close f.before.day s.clock.time))) ∧
    ∀ q, r = .portStatus q →
      ((s.port p).role = .till → q ≠ p → exec (.portStatus p) s = .next (answered (.plain .notPermitted))) ∧
      ((s.port p).role = .office ∨ q = p → ∃ wait,
        exec (.portStatus p) s = .next (answered (.portRecord
          ⟨(s.port q).role, (s.port q).mode, (s.port q).health, (s.port q).errorCount, (s.port q).timeout,
            (s.port q).recovery, if q = p then rest.length else (s.port q).requests.length, (s.port q).answers.length,
            (s.port q).notices.length, wait, s.attnLevel q, (s.port q).idleRun⟩)) ∧
        (q ≠ p → wait = s.waitLevel q) ∧
        (q = p → wait = s.waitLevel p ∨ wait = (answered .identity).waitLevel p))

/-! ### Office requests -/

/-- R8 to R10: SET-SERIES is refused BAD-FIELD, SERIES-IN-USE or OVERLAP, in that order, with nothing changed, or writes the
eleven fields of its entry and leaves the open-hold count. -/
def Obligations.SetSeriesChecksAndWrites : Prop :=
  ∀ (s s1 : State) (p : PortId) (tag : Byte) (e : EntryId) (f : SeriesFields), Granted s p tag (.setSeries e f) s1 →
    let old := (s1.entry e).fields
    let ranges := f.base ≤ 131071 ∧ 1 ≤ f.count ∧ f.count ≤ 131072 ∧ f.base + f.count ≤ 131072 ∧ 1 ≤ f.ceiling ∧
      f.ceiling ≤ 9999999 ∧ 30 ≤ f.shortLifetime ∧ f.shortLifetime ≤ f.longLifetime ∧ f.renewLimit ≤ 7
    let inUse := 0 < (s1.entry e).openHolds ∧ ¬(f.enabled = old.enabled ∧ f.matchBits = old.matchBits ∧
      f.mask = old.mask ∧ f.base = old.base ∧ f.count = old.count)
    let overlap := f.enabled = true ∧ ∃ o, o ≠ e ∧ (s1.entry o).fields.enabled = true ∧
      f.base < (s1.entry o).fields.base + (s1.entry o).fields.count ∧ (s1.entry o).fields.base < f.base + f.count
    let refuses (o : OutcomeCode) : Prop := exec .setSeries s = .next (s1.answering s p tag (.plain o))
    (¬ranges → refuses .badField) ∧ (ranges → inUse → refuses .seriesInUse) ∧
    (ranges → ¬inUse → overlap → refuses .overlap) ∧
    (ranges → ¬inUse → ¬overlap → ∃ w : State, exec .setSeries s = .next (w.answering s p tag (.plain .done)) ∧
      w.entry e = { s1.entry e with fields := f } ∧ (∀ o, o ≠ e → w.entry o = s1.entry o) ∧
      w = { s1 with series := w.series })

/-- R12, R26, R59, R135, R136: READ-SERIES, READ-CARD, READ-HOLD, DAY-REPORT and ACCOUNTS answer with what they read and
change nothing beyond their grant's start. -/
def Obligations.OfficeReadersChangeNothing : Prop :=
  ∀ (s s1 : State) (p : PortId) (tag : Byte) (r : Request), Granted s p tag r s1 →
    let answers (c : Instr) (a : Answer) : Prop := exec c s = .next (s1.answering s p tag a)
    let cardAnswer (slot : Nat) : Answer := .cardRecord slot (s1.slotCard slot)
      ((s1.slotCard slot).value - (s1.slotCard slot).held)
      (if (s1.slotCard slot).useDay = s1.accounts.day then (s1.slotCard slot).uses else 0)
      ((s1.slotCard slot).chain.map fun i => holdTag i (s1.hold i).generation)
    (∀ e, r = .readSeries e → answers .readSeries (.seriesRecord e (s1.entry e))) ∧
    (∀ slot, r = .readCard (.slot slot) → answers .readCard (cardAnswer slot)) ∧
    (∀ code, r = .readCard (.code code) →
      (s1.resolve code = none → answers .readCard (.plain .unknownCard)) ∧
      ∀ slot e, s1.resolve code = some (slot, e) → answers .readCard (cardAnswer slot)) ∧
    (∀ i, r = .readHold i → answers .readHold (.holdRecord i (s1.hold i)
      (match (s1.hold i).card with
        | .real slot => s1.governing slot
        | .trial _ => none))) ∧
    (∀ day, r = .dayReport day →
      (∀ d, s1.accounts.closedDays.find? (fun x => x.day = day) = some d → answers .dayReport (.dayRecord d)) ∧
      ((∀ d ∈ s1.accounts.closedDays, d.day ≠ day) → s1.accounts.closedDays = [] → answers .dayReport (.notKept 0 0)) ∧
      ∀ first last, (∀ d ∈ s1.accounts.closedDays, d.day ≠ day) → s1.accounts.closedDays.head? = some first →
        s1.accounts.closedDays.getLast? = some last → answers .dayReport (.notKept first.day last.day)) ∧
    (r = .accounts → answers .accounts (.accounts s1.accounts.lifetime s1.accounts.current s1.accounts.next
      s1.accounts.day s1.accounts.close s1.accounts.closedDays.length))

/-- R20 to R25: the refusals of ISSUE, BLOCK, UNBLOCK, RETIRE and EDIT-CARD in their order: UNKNOWN-CARD before any check of
the card, then its state, then HAS-HOLDS or BAD-FIELD; a refused request changes nothing. -/
def Obligations.OfficeCardRequestsAreRefused : Prop :=
  ∀ (s s1 : State) (p : PortId) (tag : Byte) (r : Request) (c : Instr) (address : Address), Granted s p tag r s1 →
    let refuses (a : Answer) : Prop := exec c s = .next (s1.answering s p tag a)
    let unknown : Prop := s1.locate address = none → refuses (.plain .unknownCard)
    let issued (slot : Nat) : Prop := (s1.slotCard slot).state = .active ∨ (s1.slotCard slot).state = .blocked
    (∀ value, r = .issue address value → c = .issue → unknown ∧ ∀ slot e, s1.locate address = some (slot, e) →
      ((s1.slotCard slot).state ≠ .blank → refuses (.plain .notBlank)) ∧
      ((s1.slotCard slot).state = .blank → (s1.entry e).fields.ceiling < value → refuses (.plain .badField))) ∧
    (r = .block address → c = .block → unknown ∧ ∀ slot e, s1.locate address = some (slot, e) →
      (s1.slotCard slot).state ≠ .active → refuses (.plain .wrongState)) ∧
    (r = .unblock address → c = .unblock → unknown ∧ ∀ slot e, s1.locate address = some (slot, e) →
      (s1.slotCard slot).state ≠ .blocked → refuses (.plain .wrongState)) ∧
    (r = .retire address → c = .retire → unknown ∧ ∀ slot e, s1.locate address = some (slot, e) →
      (¬issued slot → refuses (.plain .wrongState)) ∧
      (issued slot → (s1.slotCard slot).chain ≠ [] → refuses (.hasHolds (s1.slotCard slot).chain.length))) ∧
    ∀ editValue editUses newValue newUses, r = .editCard address editValue editUses newValue newUses → c = .editCard →
      unknown ∧ ∀ slot e, s1.locate address = some (slot, e) →
        (¬issued slot → refuses (.plain .wrongState)) ∧
        (issued slot → editValue = true → 9999999 < newValue ∨ newValue < (s1.slotCard slot).held →
          refuses (.plain .badField))

/-- R22 to R25, R123: accepted ISSUE, BLOCK, UNBLOCK, RETIRE and EDIT-CARD: the record written, the movement reported, and
nothing else changed. -/
def Obligations.OfficeCardRequestsWriteTheRecord : Prop :=
  ∀ (s s1 : State) (p : PortId) (tag : Byte) (r : Request) (address : Address) (slot : Nat) (e : EntryId),
    Granted s p tag r s1 → s1.locate address = some (slot, e) →
    let c := s1.slotCard slot
    let issued := c.state = .active ∨ c.state = .blocked
    let writes (i : Instr) (a : Answer) (record : Card) (accounts : Accounts) : Prop :=
      ∃ w, exec i s = .next (w.answering s p tag a) ∧ OneCard s1 w (.real slot) record ∧
        DriftsFollow s1 w (.real slot) ∧ w.accounts = accounts ∧
        w = { s1 with cards := w.cards, sweeps := w.sweeps, accounts := w.accounts }
    let reported (f : Figures) : Accounts := afterMovement s1.accounts (.real slot) f
    (∀ value, r = .issue address value → c.state = .blank → value ≤ (s1.entry e).fields.ceiling →
      writes .issue (.issued slot value) { c with state := .active, value := value }
        (reported { Figures.zero with issued := BitVec.ofNat 64 value })) ∧
    (r = .block address → c.state = .active →
      writes .block (.stateSet slot .blocked) { c with state := .blocked } s1.accounts) ∧
    (r = .unblock address → c.state = .blocked →
      writes .unblock (.stateSet slot .active) { c with state := .active } s1.accounts) ∧
    (r = .retire address → issued → c.chain = [] →
      writes .retire (.retired slot c.value) { c with state := .retired, value := 0 }
        (reported { Figures.zero with writtenOff := BitVec.ofNat 64 c.value })) ∧
    ∀ editValue editUses newValue newUses, r = .editCard address editValue editUses newValue newUses → issued →
      (editValue = true → newValue ≤ 9999999 ∧ c.held ≤ newValue) →
      let value := if editValue then newValue else c.value
      let useDay := if editUses then s1.accounts.day else c.useDay
      let uses := if editUses then newUses else c.uses
      writes .editCard (.edited slot value c.held useDay uses) { c with value := value, useDay := useDay, uses := uses }
        (if editValue then
          reported { Figures.zero with adjusted := BitVec.ofNat 64 newValue - BitVec.ofNat 64 c.value }
        else s1.accounts)

/-- R90, R91, R132: SET-TIME writes device time and restarts the divider; the window comparison follows; no deadline is
rewritten and nothing else changes. -/
def Obligations.SetTimeWritesDeviceTime : Prop :=
  ∀ (s s1 : State) (p : PortId) (tag : Byte) (time : Nat), Granted s p tag (.setTime time) s1 →
    let w : State := { s1 with clock := { s1.clock with time := time, divider := 0 } }
    exec .setTime s = .next (w.answering s p tag (.timeSet s1.clock.time time)).windowCheck

/-- R102, R103, R119: a sweep start takes the lowest-numbered IDLE unit, with its cursor at the start and every result and
drift zero, or is answered SWEEPS-BUSY; an ISSUE-RUN is refused BAD-FIELD first when its span or value does not lie within
the entry that governs its start slot. -/
def Obligations.SweepStartsTakeAnIdleUnit : Prop :=
  ∀ (s s1 : State) (p : PortId) (tag : Byte) (r : Request), Granted s p tag r s1 →
    let starts (c : Instr) (params : SweepParams) (cursor : Nat) : Prop :=
      let taken : Sweep := ⟨true, params, p, cursor, ⟨0, false, 0, 0, 0, 0, 0, 0, 0, 0⟩, ⟨0, 0, 0⟩⟩
      ((s1.sweep 0).running = false →
        exec c s = .next ((s1.modifySweep 0 fun _ => taken).answering s p tag (.accepted 0))) ∧
      ((s1.sweep 0).running = true → (s1.sweep 1).running = false →
        exec c s = .next ((s1.modifySweep 1 fun _ => taken).answering s p tag (.accepted 1))) ∧
      ((s1.sweep 0).running = true → (s1.sweep 1).running = true →
        exec c s = .next (s1.answering s p tag (.plain .sweepsBusy)))
    (∀ start stop critA critB limit skip, r = .search start stop critA critB limit skip →
      starts .search (.search start stop critA critB limit skip) start) ∧
    (∀ start stop, r = .tally start stop → starts .tally (.tally start stop) start) ∧
    (∀ owner till, r = .purge owner till → starts .purge (.purge owner till) 0) ∧
    ∀ start stop stride value, r = .issueRun start stop stride value →
      let allowed := ∃ e, s1.governing start = some e ∧ (s1.entry e).fields.base ≤ stop ∧
        stop < (s1.entry e).fields.base + (s1.entry e).fields.count ∧ value ≤ (s1.entry e).fields.ceiling
      (allowed → starts .issueRun (.issueRun start stop stride value) start) ∧
      (¬allowed → exec .issueRun s = .next (s1.answering s p tag (.plain .badField)))

/-- R106: CANCEL-SWEEP ends a RUNNING unit's sweep at once, its cursor and results as the last step left them; for an IDLE
unit it is answered NOT-RUNNING and changes nothing. -/
def Obligations.CancelSweepEndsARunningUnit : Prop :=
  ∀ (s s1 : State) (p : PortId) (tag : Byte) (u : UnitId), Granted s p tag (.cancelSweep u) s1 →
    ((s1.sweep u).running = false → exec .cancelSweep s = .next (s1.answering s p tag (.plain .notRunning))) ∧
    ((s1.sweep u).running = true →
      exec .cancelSweep s = .next ((s1.endSweep u .cancelled (some (s1.sweep u).cursor)).answering s p tag
        (.cancelled u (s1.sweep u).params.kind)))

/-- R126 to R130: CLOSE-DAY opens a close over the current set, or CLOSE-BUSY; CONFIRM-CLOSE from the owner files the day,
raises the day number and makes the next set current, and is answered NO-CLOSE otherwise. At the top of device time the
window comparison ends the close at once (R132). -/
def Obligations.TheDayClosesInTwoSteps : Prop :=
  ∀ (s s1 : State) (p : PortId) (tag : Byte),
    let a := s1.accounts
    let now := s1.clock.time
    (Granted s p tag .closeDay s1 →
      (∀ owner frozen deadline, a.close = .closing owner frozen deadline →
        exec .closeDay s = .next (s1.answering s p tag (.closeBusy owner))) ∧
      (a.close = .opened →
        let deadline := min (now + a.window) 4294967295
        let opened : State := { s1 with accounts := { a with close := .closing p a.current deadline } }
        exec .closeDay s = .next (opened.answering s p tag (.closeReady a.day a.current deadline)).windowCheck ∧
        (now < deadline →
          exec .closeDay s = .next (opened.answering s p tag (.closeReady a.day a.current deadline))))) ∧
    (Granted s p tag .confirmClose s1 →
      (a.close = .opened → exec .confirmClose s = .next (s1.answering s p tag (.plain .noClose))) ∧
      ∀ owner frozen deadline, a.close = .closing owner frozen deadline →
        (owner ≠ p → exec .confirmClose s = .next (s1.answering s p tag (.plain .noClose))) ∧
        (owner = p →
          let record : ClosedDay := ⟨a.day, frozen, p, now⟩
          let newDay := if a.day = 65535 then 65535 else a.day + 1
          let days :=
            if a.closedDays.getLast?.map ClosedDay.day = some 65535 then a.closedDays.dropLast ++ [record]
            else if a.closedDays.length < 8 then a.closedDays ++ [record]
            else (a.closedDays ++ [record]).tail
          exec .confirmClose s = .next (State.answering
            { s1 with accounts := { a with
                closedDays := days, day := newDay, current := a.next, next := .zero, close := .opened } }
            s p tag (.closed a.day newDay))))

/-- R144: TRIAL-SET reads the trial cards; with the write flag and no hold on any of them it writes their values and base
values; with a hold it is answered TRIAL-IN-USE and changes nothing. -/
def Obligations.TrialSetWritesIdleTrialCards : Prop :=
  ∀ (s s1 : State) (p : PortId) (tag : Byte) (values : Vector Nat 4) (write : Bool),
    Granted s p tag (.trialSet write values) s1 →
    let idle := ∀ n : TrialId, (s1.card (.trial n)).chain = []
    (write = false → exec .trialSet s = .next (s1.answering s p tag (.trialCards s1.trialCards))) ∧
    (write = true → ¬idle → exec .trialSet s = .next (s1.answering s p tag (.trialInUse s1.trialCards))) ∧
    (write = true → idle → ∃ w : State, exec .trialSet s = .next (w.answering s p tag (.trialCards w.trialCards)) ∧
      (∀ n : TrialId, w.card (.trial n) = { s1.card (.trial n) with value := values[n] }) ∧ w.trialBases = values ∧
      w = { s1 with trialCards := w.trialCards, trialBases := w.trialBases })

/-- R131, R145, R146, R159: SET-PORT is refused BAD-FIELD or LAST-OFFICE, or writes the target's role and mode; a close owned
by a target made TILL is dropped with cause ROLE-CHANGE; a target that leaves TRIAL has its open TRIAL holds freed in
increasing index order, without notices. -/
def Obligations.SetPortWritesRoleAndMode : Prop :=
  ∀ (s s1 : State) (p : PortId) (tag : Byte) (target : PortId) (role : Role) (mode : Mode),
    Granted s p tag (.setPort target role mode) s1 → PoolOk s1 →
    let owns := role = .till ∧ s1.accounts.close.owner? = some target
    (role = .office → mode = .trial → exec .setPort s = .next (s1.answering s p tag (.plain .badField))) ∧
    (role = .till → (∀ q, q ≠ target → (s1.port q).role = .till) →
      exec .setPort s = .next (s1.answering s p tag (.plain .lastOffice))) ∧
    (¬(role = .office ∧ mode = .trial) → (role = .till → ∃ q, q ≠ target ∧ (s1.port q).role = .office) →
      ∃ (w : State) (freed : List Nat), exec .setPort s = .next (w.answering s p tag (.portSet role mode)) ∧
        OnePort s1 w target { s1.port target with
          role := role, mode := mode
          notices := if owns then pushNotice (.closeDropped s1.accounts.day .roleChange) (s1.port target).notices
            else (s1.port target).notices } ∧
        w.accounts = (if owns then { s1.accounts with
          current := s1.accounts.current.add s1.accounts.next, next := .zero, close := .opened } else s1.accounts) ∧
        freed.Pairwise (· < ·) ∧
        (∀ i, i ∈ freed ↔ (s1.port target).mode = .trial ∧ mode = .normal ∧ (s1.hold i).isOpen = true ∧
          (s1.hold i).card.isTrial = true ∧ (s1.hold i).owner = target) ∧
        (∀ i, w.hold i = if i ∈ freed then
          { s1.hold i with isOpen := false, generation := (s1.hold i).generation + 1 } else s1.hold i) ∧
        w.freeList = s1.freeList ++ freed ∧ w.expiry = s1.expiry.filter (fun i => i ∉ freed) ∧
        (∀ n : TrialId, let c := s1.card (.trial n)
          w.card (.trial n) = { c with
            chain := c.chain.filter (fun i => i ∉ freed)
            held := ((c.chain.filter fun i => i ∉ freed).map fun i => (s1.hold i).amount).sum }) ∧
        w = { s1 with
          ports := w.ports, accounts := w.accounts, holds := w.holds, freeList := w.freeList, expiry := w.expiry,
          trialCards := w.trialCards })

/-- R88, R149, R160: SET-TIMING is refused BAD-FIELD for a divided clock with divisor 0, or writes the target's line
settings, the close window and the time base, restarts the divider, and makes the time-out at once when the gap under way
at the target is longer than the new setting. -/
def Obligations.SetTimingWritesTheSettings : Prop :=
  ∀ (s s1 : State) (p : PortId) (tag : Byte) (target : PortId) (timeout : Nat) (recovery : Recovery) (window : Nat)
    (base : TimeBase) (divisor : Nat), Granted s p tag (.setTiming target timeout recovery window base divisor) s1 →
    (base = .divided → divisor = 0 → exec .setTiming s = .next (s1.answering s p tag (.plain .badField))) ∧
    (base = .tick ∨ divisor ≠ 0 →
      let t : State := { s1 with
        ports := (s1.modifyPort target fun x => { x with timeout := timeout, recovery := recovery }).ports
        accounts := { s1.accounts with window := window }
        clock := ⟨s1.clock.time, base, divisor, 0⟩ }
      let w := t.answering s p tag (.timingSet timeout recovery window base divisor)
      let late := (s1.port target).receiver ≠ .hunt ∧ timeout ≠ 0 ∧ timeout < (s1.port target).gap
      (¬late → exec .setTiming s = .next w) ∧ (late → exec .setTiming s = .next (w.timeOut target)))

/-- R31, R126, R131, R158, R161: RESET-PORT performs a port reset of its target, within the grant and before its
completion: the target's queues emptied, its frame abandoned, the answer of its request in flight to be discarded, a close
it owns dropped with the notice as the first of the emptied queue; nothing else changes. That a STATUS answered before the
completion does not yet show the drop is the model's reading (log 9, DEDUCED): R126 puts a RESET-PORT's drop within its
grant, while R158 lists drops by port reset among those read as they stand. -/
def Obligations.PortResetEmptiesThePort : Prop :=
  (∀ (s s1 : State) (p : PortId) (tag : Byte) (target : PortId), Granted s p tag (.resetPort target) s1 →
    exec .resetPort s = .next ((s1.answering s p tag (.plain .done)).portReset target)) ∧
  ∀ (s : State) (target : PortId),
    let t := s.portReset target
    let owns := s.accounts.close.owner? = some target
    OnePort s t target { s.port target with
      requests := [], answers := [], receiver := .hunt, gap := 0
      notices := if owns then [⟨.closeDropped s.accounts.day .portReset, false⟩] else [] } ∧
    t.inFlight = s.inFlight.map (fun f => if f.port = target then { f with discarded := true } else f) ∧
    t.accounts = (if owns then { s.accounts with
      current := s.accounts.current.add s.accounts.next, next := .zero, close := .opened } else s.accounts) ∧
    t = { s with ports := t.ports, inFlight := t.inFlight, accounts := t.accounts }

/-- R168, R170: RESTORE-PORT makes its target ACTIVE with error count and IDLE run count 0, with a PORT-STATE notice to it
when it was not ACTIVE, and answers with the state and count before and after; nothing else changes. -/
def Obligations.RestorePortMakesActive : Prop :=
  ∀ (s s1 : State) (p : PortId) (tag : Byte) (target : PortId), Granted s p tag (.restorePort target) s1 →
    let x := s1.port target
    exec .restorePort s = .next ((s1.modifyPort target fun _ =>
      { x with
        errorCount := 0, health := .active, idleRun := 0
        notices := if x.health = .active then x.notices
          else pushNotice (.portState target x.health .active 0 .restore) x.notices }).answering s p tag
      (.restored x.health x.errorCount .active 0))

/-! ### Bytes -/

/-- R149, R150, R177: a frame sent byte by byte to a receiver in HUNT, its body 2 to 60 bytes, is taken whole and with a
matching CRC: the port judges exactly that body, with the receiver back in HUNT. The CRC is the register of the polynomial
x^16 + x^12 + x^5 + 1 from 0xFFFF over the length and body bytes, each byte most significant bit first, with no final
inversion, sent most significant byte first. -/
def Obligations.ReceiverTakesEveryFrame : Prop :=
  (∀ bytes : List Byte, crc bytes =
    (bytes.flatMap fun b => [7, 6, 5, 4, 3, 2, 1, 0].map fun i => b.getLsbD i).foldl
      (fun (r : BitVec 16) bit => if r.getLsbD 15 = bit then r <<< 1 else (r <<< 1) ^^^ 0x1021#16) 0xFFFF#16) ∧
  (∀ body : List Byte, frameCrc body = crc (BitVec.ofNat 8 body.length :: body) ∧
    frame body = 0xC5 :: BitVec.ofNat 8 body.length :: (body ++ [highByte (frameCrc body), lowByte (frameCrc body)])) ∧
  (∀ r : BitVec 16, (highByte r).toNat = r.toNat / 256 ∧ (lowByte r).toNat = r.toNat % 256) ∧
  ∀ (s : State) (p : PortId) (body : List Byte), s.resetLow = false → (s.port p).receiver = .hunt →
    2 ≤ body.length → body.length ≤ 60 →
    let t : State := s.modifyPort p fun port => { port with receiver := .hunt, gap := 0 }
    ∃ before last, frame body = before ++ [last] ∧
      ∃ u, before.foldl (fun w b => w.receiveByte p b) s = u ∧
        u = s.modifyPort p (fun port => { port with receiver := u.port p |>.receiver, gap := 0 }) ∧
        exec (.frameReceived p last) u =
          .next (if (s.port p).health = .off then t.frameInOff p body else t.frameJudged p body)

/-- 11.2, 11.3, R178: which kind each kind byte names and the body length of each kind, every other byte being undefined
(`requestTable`); the field bytes of every request in range, laid out in the order and widths of the request table, have
the length its kind defines and are read back as that request; and field bytes are read as a request of their kind with
every field in range, or not at all. -/
def Obligations.RequestBytesReadBack : Prop :=
  (∀ (b : Byte) (k : Kind), kindOfByte b = some k ↔ ∃ n, (b.toNat, k, n) ∈ requestTable) ∧
  (∀ row ∈ requestTable, row.2.1.bodyLength = row.2.2) ∧
  (∀ r : Request, r.inRange = true →
    r.fieldBytes.length + 2 = r.kind.bodyLength ∧ requestOf r.kind r.fieldBytes = some r) ∧
  ∀ (k : Kind) (fields : List Byte) (r : Request), requestOf k fields = some r → r.kind = k ∧ r.inRange = true

/-! ### Laws every step keeps -/

/-- The state after power-on is sound in every respect the laws below name. -/
def Obligations.ResetStateIsSound : Prop :=
  TablesOk State.reset ∧ PortsOk State.reset ∧ ClockOk State.reset ∧ DayOk State.reset ∧ SeriesOk State.reset ∧
    PoolOk State.reset ∧ BalanceOk State.reset ∧ SweepsOk State.reset ∧ QuietInReset State.reset

/-- Every step keeps the card table and the hold pool in their canonical form (the model's own form of the tables). -/
def Obligations.StepKeepsTables : Prop :=
  ∀ s t : State, TablesOk s → step s = .next t → TablesOk t

/-- Every step keeps the laws of the ports: at most four requests, eight places and sixteen notices, every queued request
past its content checks, the health state that of the count, and nothing queued in OFF (R152, R154, R165 to R167, R171). -/
def Obligations.StepKeepsPorts : Prop :=
  ∀ s t : State, PortsOk s → step s = .next t → PortsOk t

/-- Every step keeps the laws of the clock and of the business day (R86 to R88, R125, R126, R129, R132, R146). -/
def Obligations.StepKeepsTheDay : Prop :=
  ∀ s t : State, PortsOk s → ClockOk s → DayOk s → step s = .next t → ClockOk t ∧ DayOk t

/-- Every step keeps the series table in range and the slot ranges of its enabled entries disjoint (R2, R9, R13). -/
def Obligations.StepKeepsSeries : Prop :=
  ∀ s t : State, PortsOk s → SeriesOk s → step s = .next t → SeriesOk t

/-- Every step keeps the laws of the hold pool and of held value (R13, R16, R20, R38, R41 to R43, R140, R146). -/
def Obligations.StepKeepsThePool : Prop :=
  ∀ s t : State, PortsOk s → SeriesOk s → PoolOk s → step s = .next t → PoolOk t

/-- R124: every step keeps the sum of value over all card records equal to issued + loaded - captured - written-off +
adjusted of the lifetime counters, modulo 2^64. -/
def Obligations.StepKeepsTheBalance : Prop :=
  ∀ s t : State, PortsOk s → SeriesOk s → PoolOk s → BalanceOk s → step s = .next t → BalanceOk t

/-- R113: every step keeps the law of a running TALLY, and the cursor of every running sweep in its range. -/
def Obligations.StepKeepsTallies : Prop :=
  ∀ s t : State, PortsOk s → SweepsOk s → step s = .next t → SweepsOk t

/-- R35, R163: every step keeps the part quiet while RESET_N is low. -/
def Obligations.StepKeepsResetQuiet : Prop :=
  ∀ s t : State, QuietInReset s → step s = .next t → QuietInReset t
end

