-- ==== Sys2Proof/Laws/State.lean ====
section
/-! SUPPORT. What each named update of a state leaves in each field: one lemma per field and update, and read-after-write
for the records of ports, series entries, sweep units, trial cards. -/

namespace Sys2Proof.Machine

/-! ### modifyPort -/

@[simp] theorem State.modifyPort_resetLow (s : State) (p : PortId) (f : Port → Port) : (s.modifyPort p f).resetLow = s.resetLow := rfl
@[simp] theorem State.modifyPort_lineRate (s : State) (p : PortId) (f : Port → Port) : (s.modifyPort p f).lineRate = s.lineRate := rfl
@[simp] theorem State.modifyPort_clock (s : State) (p : PortId) (f : Port → Port) : (s.modifyPort p f).clock = s.clock := rfl
@[simp] theorem State.modifyPort_series (s : State) (p : PortId) (f : Port → Port) : (s.modifyPort p f).series = s.series := rfl
@[simp] theorem State.modifyPort_cards (s : State) (p : PortId) (f : Port → Port) : (s.modifyPort p f).cards = s.cards := rfl
@[simp] theorem State.modifyPort_holds (s : State) (p : PortId) (f : Port → Port) : (s.modifyPort p f).holds = s.holds := rfl
@[simp] theorem State.modifyPort_freeList (s : State) (p : PortId) (f : Port → Port) : (s.modifyPort p f).freeList = s.freeList := rfl
@[simp] theorem State.modifyPort_expiry (s : State) (p : PortId) (f : Port → Port) : (s.modifyPort p f).expiry = s.expiry := rfl
@[simp] theorem State.modifyPort_trialCards (s : State) (p : PortId) (f : Port → Port) : (s.modifyPort p f).trialCards = s.trialCards := rfl
@[simp] theorem State.modifyPort_trialBases (s : State) (p : PortId) (f : Port → Port) : (s.modifyPort p f).trialBases = s.trialBases := rfl
@[simp] theorem State.modifyPort_lastGranted (s : State) (p : PortId) (f : Port → Port) : (s.modifyPort p f).lastGranted = s.lastGranted := rfl
@[simp] theorem State.modifyPort_inFlight (s : State) (p : PortId) (f : Port → Port) : (s.modifyPort p f).inFlight = s.inFlight := rfl
@[simp] theorem State.modifyPort_sweeps (s : State) (p : PortId) (f : Port → Port) : (s.modifyPort p f).sweeps = s.sweeps := rfl
@[simp] theorem State.modifyPort_accounts (s : State) (p : PortId) (f : Port → Port) : (s.modifyPort p f).accounts = s.accounts := rfl
@[simp] theorem State.modifyPort_pending (s : State) (p : PortId) (f : Port → Port) : (s.modifyPort p f).pending = s.pending := rfl

/-! ### modifyEntry -/

@[simp] theorem State.modifyEntry_resetLow (s : State) (e : EntryId) (f : SeriesEntry → SeriesEntry) : (s.modifyEntry e f).resetLow = s.resetLow := rfl
@[simp] theorem State.modifyEntry_lineRate (s : State) (e : EntryId) (f : SeriesEntry → SeriesEntry) : (s.modifyEntry e f).lineRate = s.lineRate := rfl
@[simp] theorem State.modifyEntry_clock (s : State) (e : EntryId) (f : SeriesEntry → SeriesEntry) : (s.modifyEntry e f).clock = s.clock := rfl
@[simp] theorem State.modifyEntry_cards (s : State) (e : EntryId) (f : SeriesEntry → SeriesEntry) : (s.modifyEntry e f).cards = s.cards := rfl
@[simp] theorem State.modifyEntry_holds (s : State) (e : EntryId) (f : SeriesEntry → SeriesEntry) : (s.modifyEntry e f).holds = s.holds := rfl
@[simp] theorem State.modifyEntry_freeList (s : State) (e : EntryId) (f : SeriesEntry → SeriesEntry) : (s.modifyEntry e f).freeList = s.freeList := rfl
@[simp] theorem State.modifyEntry_expiry (s : State) (e : EntryId) (f : SeriesEntry → SeriesEntry) : (s.modifyEntry e f).expiry = s.expiry := rfl
@[simp] theorem State.modifyEntry_trialCards (s : State) (e : EntryId) (f : SeriesEntry → SeriesEntry) : (s.modifyEntry e f).trialCards = s.trialCards := rfl
@[simp] theorem State.modifyEntry_trialBases (s : State) (e : EntryId) (f : SeriesEntry → SeriesEntry) : (s.modifyEntry e f).trialBases = s.trialBases := rfl
@[simp] theorem State.modifyEntry_lastGranted (s : State) (e : EntryId) (f : SeriesEntry → SeriesEntry) : (s.modifyEntry e f).lastGranted = s.lastGranted := rfl
@[simp] theorem State.modifyEntry_inFlight (s : State) (e : EntryId) (f : SeriesEntry → SeriesEntry) : (s.modifyEntry e f).inFlight = s.inFlight := rfl
@[simp] theorem State.modifyEntry_sweeps (s : State) (e : EntryId) (f : SeriesEntry → SeriesEntry) : (s.modifyEntry e f).sweeps = s.sweeps := rfl
@[simp] theorem State.modifyEntry_accounts (s : State) (e : EntryId) (f : SeriesEntry → SeriesEntry) : (s.modifyEntry e f).accounts = s.accounts := rfl
@[simp] theorem State.modifyEntry_ports (s : State) (e : EntryId) (f : SeriesEntry → SeriesEntry) : (s.modifyEntry e f).ports = s.ports := rfl
@[simp] theorem State.modifyEntry_pending (s : State) (e : EntryId) (f : SeriesEntry → SeriesEntry) : (s.modifyEntry e f).pending = s.pending := rfl

/-! ### modifySweep -/

@[simp] theorem State.modifySweep_resetLow (s : State) (u : UnitId) (f : Sweep → Sweep) : (s.modifySweep u f).resetLow = s.resetLow := rfl
@[simp] theorem State.modifySweep_lineRate (s : State) (u : UnitId) (f : Sweep → Sweep) : (s.modifySweep u f).lineRate = s.lineRate := rfl
@[simp] theorem State.modifySweep_clock (s : State) (u : UnitId) (f : Sweep → Sweep) : (s.modifySweep u f).clock = s.clock := rfl
@[simp] theorem State.modifySweep_series (s : State) (u : UnitId) (f : Sweep → Sweep) : (s.modifySweep u f).series = s.series := rfl
@[simp] theorem State.modifySweep_cards (s : State) (u : UnitId) (f : Sweep → Sweep) : (s.modifySweep u f).cards = s.cards := rfl
@[simp] theorem State.modifySweep_holds (s : State) (u : UnitId) (f : Sweep → Sweep) : (s.modifySweep u f).holds = s.holds := rfl
@[simp] theorem State.modifySweep_freeList (s : State) (u : UnitId) (f : Sweep → Sweep) : (s.modifySweep u f).freeList = s.freeList := rfl
@[simp] theorem State.modifySweep_expiry (s : State) (u : UnitId) (f : Sweep → Sweep) : (s.modifySweep u f).expiry = s.expiry := rfl
@[simp] theorem State.modifySweep_trialCards (s : State) (u : UnitId) (f : Sweep → Sweep) : (s.modifySweep u f).trialCards = s.trialCards := rfl
@[simp] theorem State.modifySweep_trialBases (s : State) (u : UnitId) (f : Sweep → Sweep) : (s.modifySweep u f).trialBases = s.trialBases := rfl
@[simp] theorem State.modifySweep_lastGranted (s : State) (u : UnitId) (f : Sweep → Sweep) : (s.modifySweep u f).lastGranted = s.lastGranted := rfl
@[simp] theorem State.modifySweep_inFlight (s : State) (u : UnitId) (f : Sweep → Sweep) : (s.modifySweep u f).inFlight = s.inFlight := rfl
@[simp] theorem State.modifySweep_accounts (s : State) (u : UnitId) (f : Sweep → Sweep) : (s.modifySweep u f).accounts = s.accounts := rfl
@[simp] theorem State.modifySweep_ports (s : State) (u : UnitId) (f : Sweep → Sweep) : (s.modifySweep u f).ports = s.ports := rfl
@[simp] theorem State.modifySweep_pending (s : State) (u : UnitId) (f : Sweep → Sweep) : (s.modifySweep u f).pending = s.pending := rfl

/-! ### setHold -/

@[simp] theorem State.setHold_resetLow (s : State) (i : Nat) (h : Hold) : (s.setHold i h).resetLow = s.resetLow := rfl
@[simp] theorem State.setHold_lineRate (s : State) (i : Nat) (h : Hold) : (s.setHold i h).lineRate = s.lineRate := rfl
@[simp] theorem State.setHold_clock (s : State) (i : Nat) (h : Hold) : (s.setHold i h).clock = s.clock := rfl
@[simp] theorem State.setHold_series (s : State) (i : Nat) (h : Hold) : (s.setHold i h).series = s.series := rfl
@[simp] theorem State.setHold_cards (s : State) (i : Nat) (h : Hold) : (s.setHold i h).cards = s.cards := rfl
@[simp] theorem State.setHold_freeList (s : State) (i : Nat) (h : Hold) : (s.setHold i h).freeList = s.freeList := rfl
@[simp] theorem State.setHold_expiry (s : State) (i : Nat) (h : Hold) : (s.setHold i h).expiry = s.expiry := rfl
@[simp] theorem State.setHold_trialCards (s : State) (i : Nat) (h : Hold) : (s.setHold i h).trialCards = s.trialCards := rfl
@[simp] theorem State.setHold_trialBases (s : State) (i : Nat) (h : Hold) : (s.setHold i h).trialBases = s.trialBases := rfl
@[simp] theorem State.setHold_lastGranted (s : State) (i : Nat) (h : Hold) : (s.setHold i h).lastGranted = s.lastGranted := rfl
@[simp] theorem State.setHold_inFlight (s : State) (i : Nat) (h : Hold) : (s.setHold i h).inFlight = s.inFlight := rfl
@[simp] theorem State.setHold_sweeps (s : State) (i : Nat) (h : Hold) : (s.setHold i h).sweeps = s.sweeps := rfl
@[simp] theorem State.setHold_accounts (s : State) (i : Nat) (h : Hold) : (s.setHold i h).accounts = s.accounts := rfl
@[simp] theorem State.setHold_ports (s : State) (i : Nat) (h : Hold) : (s.setHold i h).ports = s.ports := rfl
@[simp] theorem State.setHold_pending (s : State) (i : Nat) (h : Hold) : (s.setHold i h).pending = s.pending := rfl

/-! ### setSlotCard -/

@[simp] theorem State.setSlotCard_resetLow (s : State) (n : Nat) (c : Card) : (s.setSlotCard n c).resetLow = s.resetLow := rfl
@[simp] theorem State.setSlotCard_lineRate (s : State) (n : Nat) (c : Card) : (s.setSlotCard n c).lineRate = s.lineRate := rfl
@[simp] theorem State.setSlotCard_clock (s : State) (n : Nat) (c : Card) : (s.setSlotCard n c).clock = s.clock := rfl
@[simp] theorem State.setSlotCard_series (s : State) (n : Nat) (c : Card) : (s.setSlotCard n c).series = s.series := rfl
@[simp] theorem State.setSlotCard_holds (s : State) (n : Nat) (c : Card) : (s.setSlotCard n c).holds = s.holds := rfl
@[simp] theorem State.setSlotCard_freeList (s : State) (n : Nat) (c : Card) : (s.setSlotCard n c).freeList = s.freeList := rfl
@[simp] theorem State.setSlotCard_expiry (s : State) (n : Nat) (c : Card) : (s.setSlotCard n c).expiry = s.expiry := rfl
@[simp] theorem State.setSlotCard_trialCards (s : State) (n : Nat) (c : Card) : (s.setSlotCard n c).trialCards = s.trialCards := rfl
@[simp] theorem State.setSlotCard_trialBases (s : State) (n : Nat) (c : Card) : (s.setSlotCard n c).trialBases = s.trialBases := rfl
@[simp] theorem State.setSlotCard_lastGranted (s : State) (n : Nat) (c : Card) : (s.setSlotCard n c).lastGranted = s.lastGranted := rfl
@[simp] theorem State.setSlotCard_inFlight (s : State) (n : Nat) (c : Card) : (s.setSlotCard n c).inFlight = s.inFlight := rfl
@[simp] theorem State.setSlotCard_accounts (s : State) (n : Nat) (c : Card) : (s.setSlotCard n c).accounts = s.accounts := rfl
@[simp] theorem State.setSlotCard_ports (s : State) (n : Nat) (c : Card) : (s.setSlotCard n c).ports = s.ports := rfl
@[simp] theorem State.setSlotCard_pending (s : State) (n : Nat) (c : Card) : (s.setSlotCard n c).pending = s.pending := rfl

/-! ### setTrialCard -/

@[simp] theorem State.setTrialCard_resetLow (s : State) (t : TrialId) (c : Card) : (s.setTrialCard t c).resetLow = s.resetLow := rfl
@[simp] theorem State.setTrialCard_lineRate (s : State) (t : TrialId) (c : Card) : (s.setTrialCard t c).lineRate = s.lineRate := rfl
@[simp] theorem State.setTrialCard_clock (s : State) (t : TrialId) (c : Card) : (s.setTrialCard t c).clock = s.clock := rfl
@[simp] theorem State.setTrialCard_series (s : State) (t : TrialId) (c : Card) : (s.setTrialCard t c).series = s.series := rfl
@[simp] theorem State.setTrialCard_cards (s : State) (t : TrialId) (c : Card) : (s.setTrialCard t c).cards = s.cards := rfl
@[simp] theorem State.setTrialCard_holds (s : State) (t : TrialId) (c : Card) : (s.setTrialCard t c).holds = s.holds := rfl
@[simp] theorem State.setTrialCard_freeList (s : State) (t : TrialId) (c : Card) : (s.setTrialCard t c).freeList = s.freeList := rfl
@[simp] theorem State.setTrialCard_expiry (s : State) (t : TrialId) (c : Card) : (s.setTrialCard t c).expiry = s.expiry := rfl
@[simp] theorem State.setTrialCard_trialBases (s : State) (t : TrialId) (c : Card) : (s.setTrialCard t c).trialBases = s.trialBases := rfl
@[simp] theorem State.setTrialCard_lastGranted (s : State) (t : TrialId) (c : Card) : (s.setTrialCard t c).lastGranted = s.lastGranted := rfl
@[simp] theorem State.setTrialCard_inFlight (s : State) (t : TrialId) (c : Card) : (s.setTrialCard t c).inFlight = s.inFlight := rfl
@[simp] theorem State.setTrialCard_sweeps (s : State) (t : TrialId) (c : Card) : (s.setTrialCard t c).sweeps = s.sweeps := rfl
@[simp] theorem State.setTrialCard_accounts (s : State) (t : TrialId) (c : Card) : (s.setTrialCard t c).accounts = s.accounts := rfl
@[simp] theorem State.setTrialCard_ports (s : State) (t : TrialId) (c : Card) : (s.setTrialCard t c).ports = s.ports := rfl
@[simp] theorem State.setTrialCard_pending (s : State) (t : TrialId) (c : Card) : (s.setTrialCard t c).pending = s.pending := rfl

/-! ### setTime -/

@[simp] theorem State.setTime_resetLow (s : State) (t : Nat) : (s.setTime t).resetLow = s.resetLow := rfl
@[simp] theorem State.setTime_lineRate (s : State) (t : Nat) : (s.setTime t).lineRate = s.lineRate := rfl
@[simp] theorem State.setTime_series (s : State) (t : Nat) : (s.setTime t).series = s.series := rfl
@[simp] theorem State.setTime_cards (s : State) (t : Nat) : (s.setTime t).cards = s.cards := rfl
@[simp] theorem State.setTime_holds (s : State) (t : Nat) : (s.setTime t).holds = s.holds := rfl
@[simp] theorem State.setTime_freeList (s : State) (t : Nat) : (s.setTime t).freeList = s.freeList := rfl
@[simp] theorem State.setTime_expiry (s : State) (t : Nat) : (s.setTime t).expiry = s.expiry := rfl
@[simp] theorem State.setTime_trialCards (s : State) (t : Nat) : (s.setTime t).trialCards = s.trialCards := rfl
@[simp] theorem State.setTime_trialBases (s : State) (t : Nat) : (s.setTime t).trialBases = s.trialBases := rfl
@[simp] theorem State.setTime_lastGranted (s : State) (t : Nat) : (s.setTime t).lastGranted = s.lastGranted := rfl
@[simp] theorem State.setTime_inFlight (s : State) (t : Nat) : (s.setTime t).inFlight = s.inFlight := rfl
@[simp] theorem State.setTime_sweeps (s : State) (t : Nat) : (s.setTime t).sweeps = s.sweeps := rfl
@[simp] theorem State.setTime_accounts (s : State) (t : Nat) : (s.setTime t).accounts = s.accounts := rfl
@[simp] theorem State.setTime_ports (s : State) (t : Nat) : (s.setTime t).ports = s.ports := rfl
@[simp] theorem State.setTime_pending (s : State) (t : Nat) : (s.setTime t).pending = s.pending := rfl

/-! ### notify -/

@[simp] theorem State.notify_resetLow (s : State) (p : PortId) (n : Notice) : (s.notify p n).resetLow = s.resetLow := rfl
@[simp] theorem State.notify_lineRate (s : State) (p : PortId) (n : Notice) : (s.notify p n).lineRate = s.lineRate := rfl
@[simp] theorem State.notify_clock (s : State) (p : PortId) (n : Notice) : (s.notify p n).clock = s.clock := rfl
@[simp] theorem State.notify_series (s : State) (p : PortId) (n : Notice) : (s.notify p n).series = s.series := rfl
@[simp] theorem State.notify_cards (s : State) (p : PortId) (n : Notice) : (s.notify p n).cards = s.cards := rfl
@[simp] theorem State.notify_holds (s : State) (p : PortId) (n : Notice) : (s.notify p n).holds = s.holds := rfl
@[simp] theorem State.notify_freeList (s : State) (p : PortId) (n : Notice) : (s.notify p n).freeList = s.freeList := rfl
@[simp] theorem State.notify_expiry (s : State) (p : PortId) (n : Notice) : (s.notify p n).expiry = s.expiry := rfl
@[simp] theorem State.notify_trialCards (s : State) (p : PortId) (n : Notice) : (s.notify p n).trialCards = s.trialCards := rfl
@[simp] theorem State.notify_trialBases (s : State) (p : PortId) (n : Notice) : (s.notify p n).trialBases = s.trialBases := rfl
@[simp] theorem State.notify_lastGranted (s : State) (p : PortId) (n : Notice) : (s.notify p n).lastGranted = s.lastGranted := rfl
@[simp] theorem State.notify_inFlight (s : State) (p : PortId) (n : Notice) : (s.notify p n).inFlight = s.inFlight := rfl
@[simp] theorem State.notify_sweeps (s : State) (p : PortId) (n : Notice) : (s.notify p n).sweeps = s.sweeps := rfl
@[simp] theorem State.notify_accounts (s : State) (p : PortId) (n : Notice) : (s.notify p n).accounts = s.accounts := rfl
@[simp] theorem State.notify_pending (s : State) (p : PortId) (n : Notice) : (s.notify p n).pending = s.pending := rfl

/-! ### discardInFlight -/

@[simp] theorem State.discardInFlight_resetLow (s : State) (p : PortId) : (s.discardInFlight p).resetLow = s.resetLow := rfl
@[simp] theorem State.discardInFlight_lineRate (s : State) (p : PortId) : (s.discardInFlight p).lineRate = s.lineRate := rfl
@[simp] theorem State.discardInFlight_clock (s : State) (p : PortId) : (s.discardInFlight p).clock = s.clock := rfl
@[simp] theorem State.discardInFlight_series (s : State) (p : PortId) : (s.discardInFlight p).series = s.series := rfl
@[simp] theorem State.discardInFlight_cards (s : State) (p : PortId) : (s.discardInFlight p).cards = s.cards := rfl
@[simp] theorem State.discardInFlight_holds (s : State) (p : PortId) : (s.discardInFlight p).holds = s.holds := rfl
@[simp] theorem State.discardInFlight_freeList (s : State) (p : PortId) : (s.discardInFlight p).freeList = s.freeList := rfl
@[simp] theorem State.discardInFlight_expiry (s : State) (p : PortId) : (s.discardInFlight p).expiry = s.expiry := rfl
@[simp] theorem State.discardInFlight_trialCards (s : State) (p : PortId) : (s.discardInFlight p).trialCards = s.trialCards := rfl
@[simp] theorem State.discardInFlight_trialBases (s : State) (p : PortId) : (s.discardInFlight p).trialBases = s.trialBases := rfl
@[simp] theorem State.discardInFlight_lastGranted (s : State) (p : PortId) : (s.discardInFlight p).lastGranted = s.lastGranted := rfl
@[simp] theorem State.discardInFlight_sweeps (s : State) (p : PortId) : (s.discardInFlight p).sweeps = s.sweeps := rfl
@[simp] theorem State.discardInFlight_accounts (s : State) (p : PortId) : (s.discardInFlight p).accounts = s.accounts := rfl
@[simp] theorem State.discardInFlight_ports (s : State) (p : PortId) : (s.discardInFlight p).ports = s.ports := rfl
@[simp] theorem State.discardInFlight_pending (s : State) (p : PortId) : (s.discardInFlight p).pending = s.pending := rfl

/-! ### pushAnswer -/

@[simp] theorem State.pushAnswer_resetLow (s : State) (p : PortId) (tag : Byte) (a : Answer) : (s.pushAnswer p tag a).resetLow = s.resetLow := rfl
@[simp] theorem State.pushAnswer_lineRate (s : State) (p : PortId) (tag : Byte) (a : Answer) : (s.pushAnswer p tag a).lineRate = s.lineRate := rfl
@[simp] theorem State.pushAnswer_clock (s : State) (p : PortId) (tag : Byte) (a : Answer) : (s.pushAnswer p tag a).clock = s.clock := rfl
@[simp] theorem State.pushAnswer_series (s : State) (p : PortId) (tag : Byte) (a : Answer) : (s.pushAnswer p tag a).series = s.series := rfl
@[simp] theorem State.pushAnswer_cards (s : State) (p : PortId) (tag : Byte) (a : Answer) : (s.pushAnswer p tag a).cards = s.cards := rfl
@[simp] theorem State.pushAnswer_holds (s : State) (p : PortId) (tag : Byte) (a : Answer) : (s.pushAnswer p tag a).holds = s.holds := rfl
@[simp] theorem State.pushAnswer_freeList (s : State) (p : PortId) (tag : Byte) (a : Answer) : (s.pushAnswer p tag a).freeList = s.freeList := rfl
@[simp] theorem State.pushAnswer_expiry (s : State) (p : PortId) (tag : Byte) (a : Answer) : (s.pushAnswer p tag a).expiry = s.expiry := rfl
@[simp] theorem State.pushAnswer_trialCards (s : State) (p : PortId) (tag : Byte) (a : Answer) : (s.pushAnswer p tag a).trialCards = s.trialCards := rfl
@[simp] theorem State.pushAnswer_trialBases (s : State) (p : PortId) (tag : Byte) (a : Answer) : (s.pushAnswer p tag a).trialBases = s.trialBases := rfl
@[simp] theorem State.pushAnswer_lastGranted (s : State) (p : PortId) (tag : Byte) (a : Answer) : (s.pushAnswer p tag a).lastGranted = s.lastGranted := rfl
@[simp] theorem State.pushAnswer_inFlight (s : State) (p : PortId) (tag : Byte) (a : Answer) : (s.pushAnswer p tag a).inFlight = s.inFlight := rfl
@[simp] theorem State.pushAnswer_sweeps (s : State) (p : PortId) (tag : Byte) (a : Answer) : (s.pushAnswer p tag a).sweeps = s.sweeps := rfl
@[simp] theorem State.pushAnswer_accounts (s : State) (p : PortId) (tag : Byte) (a : Answer) : (s.pushAnswer p tag a).accounts = s.accounts := rfl
@[simp] theorem State.pushAnswer_pending (s : State) (p : PortId) (tag : Byte) (a : Answer) : (s.pushAnswer p tag a).pending = s.pending := rfl

/-! ### popRequest -/

@[simp] theorem State.popRequest_resetLow (s : State) (p : PortId) : (s.popRequest p).resetLow = s.resetLow := rfl
@[simp] theorem State.popRequest_lineRate (s : State) (p : PortId) : (s.popRequest p).lineRate = s.lineRate := rfl
@[simp] theorem State.popRequest_clock (s : State) (p : PortId) : (s.popRequest p).clock = s.clock := rfl
@[simp] theorem State.popRequest_series (s : State) (p : PortId) : (s.popRequest p).series = s.series := rfl
@[simp] theorem State.popRequest_cards (s : State) (p : PortId) : (s.popRequest p).cards = s.cards := rfl
@[simp] theorem State.popRequest_holds (s : State) (p : PortId) : (s.popRequest p).holds = s.holds := rfl
@[simp] theorem State.popRequest_freeList (s : State) (p : PortId) : (s.popRequest p).freeList = s.freeList := rfl
@[simp] theorem State.popRequest_expiry (s : State) (p : PortId) : (s.popRequest p).expiry = s.expiry := rfl
@[simp] theorem State.popRequest_trialCards (s : State) (p : PortId) : (s.popRequest p).trialCards = s.trialCards := rfl
@[simp] theorem State.popRequest_trialBases (s : State) (p : PortId) : (s.popRequest p).trialBases = s.trialBases := rfl
@[simp] theorem State.popRequest_lastGranted (s : State) (p : PortId) : (s.popRequest p).lastGranted = s.lastGranted := rfl
@[simp] theorem State.popRequest_inFlight (s : State) (p : PortId) : (s.popRequest p).inFlight = s.inFlight := rfl
@[simp] theorem State.popRequest_sweeps (s : State) (p : PortId) : (s.popRequest p).sweeps = s.sweeps := rfl
@[simp] theorem State.popRequest_accounts (s : State) (p : PortId) : (s.popRequest p).accounts = s.accounts := rfl
@[simp] theorem State.popRequest_pending (s : State) (p : PortId) : (s.popRequest p).pending = s.pending := rfl

/-! ### grantTo -/

@[simp] theorem State.grantTo_resetLow (s : State) (c : Claimant) : (s.grantTo c).resetLow = s.resetLow := rfl
@[simp] theorem State.grantTo_lineRate (s : State) (c : Claimant) : (s.grantTo c).lineRate = s.lineRate := rfl
@[simp] theorem State.grantTo_clock (s : State) (c : Claimant) : (s.grantTo c).clock = s.clock := rfl
@[simp] theorem State.grantTo_series (s : State) (c : Claimant) : (s.grantTo c).series = s.series := rfl
@[simp] theorem State.grantTo_cards (s : State) (c : Claimant) : (s.grantTo c).cards = s.cards := rfl
@[simp] theorem State.grantTo_holds (s : State) (c : Claimant) : (s.grantTo c).holds = s.holds := rfl
@[simp] theorem State.grantTo_freeList (s : State) (c : Claimant) : (s.grantTo c).freeList = s.freeList := rfl
@[simp] theorem State.grantTo_expiry (s : State) (c : Claimant) : (s.grantTo c).expiry = s.expiry := rfl
@[simp] theorem State.grantTo_trialCards (s : State) (c : Claimant) : (s.grantTo c).trialCards = s.trialCards := rfl
@[simp] theorem State.grantTo_trialBases (s : State) (c : Claimant) : (s.grantTo c).trialBases = s.trialBases := rfl
@[simp] theorem State.grantTo_inFlight (s : State) (c : Claimant) : (s.grantTo c).inFlight = s.inFlight := rfl
@[simp] theorem State.grantTo_sweeps (s : State) (c : Claimant) : (s.grantTo c).sweeps = s.sweeps := rfl
@[simp] theorem State.grantTo_accounts (s : State) (c : Claimant) : (s.grantTo c).accounts = s.accounts := rfl
@[simp] theorem State.grantTo_ports (s : State) (c : Claimant) : (s.grantTo c).ports = s.ports := rfl
@[simp] theorem State.grantTo_pending (s : State) (c : Claimant) : (s.grantTo c).pending = s.pending := rfl

/-! ### Records after modifyPort -/

@[simp] theorem State.modifyPort_entry (s : State) (p : PortId) (f : Port → Port) (x : EntryId) : (s.modifyPort p f).entry x = s.entry x := rfl
@[simp] theorem State.modifyPort_sweep (s : State) (p : PortId) (f : Port → Port) (v : UnitId) : (s.modifyPort p f).sweep v = s.sweep v := rfl
@[simp] theorem State.modifyPort_hold (s : State) (p : PortId) (f : Port → Port) (j : Nat) : (s.modifyPort p f).hold j = s.hold j := rfl
@[simp] theorem State.modifyPort_slotCard (s : State) (p : PortId) (f : Port → Port) (m : Nat) : (s.modifyPort p f).slotCard m = s.slotCard m := rfl
@[simp] theorem State.modifyPort_governing (s : State) (p : PortId) (f : Port → Port) (m : Nat) : (s.modifyPort p f).governing m = s.governing m := rfl
@[simp] theorem State.modifyPort_resolve (s : State) (p : PortId) (f : Port → Port) (c : CardCode) : (s.modifyPort p f).resolve c = s.resolve c := rfl

/-! ### Records after modifyEntry -/

@[simp] theorem State.modifyEntry_port (s : State) (e : EntryId) (f : SeriesEntry → SeriesEntry) (q : PortId) : (s.modifyEntry e f).port q = s.port q := rfl
@[simp] theorem State.modifyEntry_sweep (s : State) (e : EntryId) (f : SeriesEntry → SeriesEntry) (v : UnitId) : (s.modifyEntry e f).sweep v = s.sweep v := rfl
@[simp] theorem State.modifyEntry_hold (s : State) (e : EntryId) (f : SeriesEntry → SeriesEntry) (j : Nat) : (s.modifyEntry e f).hold j = s.hold j := rfl
@[simp] theorem State.modifyEntry_slotCard (s : State) (e : EntryId) (f : SeriesEntry → SeriesEntry) (m : Nat) : (s.modifyEntry e f).slotCard m = s.slotCard m := rfl

/-! ### Records after modifySweep -/

@[simp] theorem State.modifySweep_port (s : State) (u : UnitId) (f : Sweep → Sweep) (q : PortId) : (s.modifySweep u f).port q = s.port q := rfl
@[simp] theorem State.modifySweep_entry (s : State) (u : UnitId) (f : Sweep → Sweep) (x : EntryId) : (s.modifySweep u f).entry x = s.entry x := rfl
@[simp] theorem State.modifySweep_hold (s : State) (u : UnitId) (f : Sweep → Sweep) (j : Nat) : (s.modifySweep u f).hold j = s.hold j := rfl
@[simp] theorem State.modifySweep_slotCard (s : State) (u : UnitId) (f : Sweep → Sweep) (m : Nat) : (s.modifySweep u f).slotCard m = s.slotCard m := rfl
@[simp] theorem State.modifySweep_governing (s : State) (u : UnitId) (f : Sweep → Sweep) (m : Nat) : (s.modifySweep u f).governing m = s.governing m := rfl
@[simp] theorem State.modifySweep_resolve (s : State) (u : UnitId) (f : Sweep → Sweep) (c : CardCode) : (s.modifySweep u f).resolve c = s.resolve c := rfl

/-! ### Records after setHold -/

@[simp] theorem State.setHold_port (s : State) (i : Nat) (h : Hold) (q : PortId) : (s.setHold i h).port q = s.port q := rfl
@[simp] theorem State.setHold_entry (s : State) (i : Nat) (h : Hold) (x : EntryId) : (s.setHold i h).entry x = s.entry x := rfl
@[simp] theorem State.setHold_sweep (s : State) (i : Nat) (h : Hold) (v : UnitId) : (s.setHold i h).sweep v = s.sweep v := rfl
@[simp] theorem State.setHold_slotCard (s : State) (i : Nat) (h : Hold) (m : Nat) : (s.setHold i h).slotCard m = s.slotCard m := rfl
@[simp] theorem State.setHold_governing (s : State) (i : Nat) (h : Hold) (m : Nat) : (s.setHold i h).governing m = s.governing m := rfl
@[simp] theorem State.setHold_resolve (s : State) (i : Nat) (h : Hold) (c : CardCode) : (s.setHold i h).resolve c = s.resolve c := rfl

/-! ### Records after setSlotCard -/

@[simp] theorem State.setSlotCard_port (s : State) (n : Nat) (c : Card) (q : PortId) : (s.setSlotCard n c).port q = s.port q := rfl
@[simp] theorem State.setSlotCard_entry (s : State) (n : Nat) (c : Card) (x : EntryId) : (s.setSlotCard n c).entry x = s.entry x := rfl
@[simp] theorem State.setSlotCard_hold (s : State) (n : Nat) (c : Card) (j : Nat) : (s.setSlotCard n c).hold j = s.hold j := rfl
@[simp] theorem State.setSlotCard_governing (s : State) (n : Nat) (c : Card) (m : Nat) : (s.setSlotCard n c).governing m = s.governing m := rfl
@[simp] theorem State.setSlotCard_resolve (s : State) (n : Nat) (c : Card) (d : CardCode) : (s.setSlotCard n c).resolve d = s.resolve d := rfl

/-! ### Records after setTrialCard -/

@[simp] theorem State.setTrialCard_port (s : State) (t : TrialId) (c : Card) (q : PortId) : (s.setTrialCard t c).port q = s.port q := rfl
@[simp] theorem State.setTrialCard_entry (s : State) (t : TrialId) (c : Card) (x : EntryId) : (s.setTrialCard t c).entry x = s.entry x := rfl
@[simp] theorem State.setTrialCard_sweep (s : State) (t : TrialId) (c : Card) (v : UnitId) : (s.setTrialCard t c).sweep v = s.sweep v := rfl
@[simp] theorem State.setTrialCard_hold (s : State) (t : TrialId) (c : Card) (j : Nat) : (s.setTrialCard t c).hold j = s.hold j := rfl
@[simp] theorem State.setTrialCard_slotCard (s : State) (t : TrialId) (c : Card) (m : Nat) : (s.setTrialCard t c).slotCard m = s.slotCard m := rfl
@[simp] theorem State.setTrialCard_governing (s : State) (t : TrialId) (c : Card) (m : Nat) : (s.setTrialCard t c).governing m = s.governing m := rfl
@[simp] theorem State.setTrialCard_resolve (s : State) (t : TrialId) (c : Card) (d : CardCode) : (s.setTrialCard t c).resolve d = s.resolve d := rfl

/-! ### Records after setTime -/

@[simp] theorem State.setTime_port (s : State) (t : Nat) (q : PortId) : (s.setTime t).port q = s.port q := rfl
@[simp] theorem State.setTime_entry (s : State) (t : Nat) (x : EntryId) : (s.setTime t).entry x = s.entry x := rfl
@[simp] theorem State.setTime_sweep (s : State) (t : Nat) (v : UnitId) : (s.setTime t).sweep v = s.sweep v := rfl
@[simp] theorem State.setTime_hold (s : State) (t : Nat) (j : Nat) : (s.setTime t).hold j = s.hold j := rfl
@[simp] theorem State.setTime_slotCard (s : State) (t : Nat) (m : Nat) : (s.setTime t).slotCard m = s.slotCard m := rfl
@[simp] theorem State.setTime_governing (s : State) (t : Nat) (m : Nat) : (s.setTime t).governing m = s.governing m := rfl
@[simp] theorem State.setTime_resolve (s : State) (t : Nat) (c : CardCode) : (s.setTime t).resolve c = s.resolve c := rfl

/-! ### Records after notify -/

@[simp] theorem State.notify_entry (s : State) (p : PortId) (n : Notice) (x : EntryId) : (s.notify p n).entry x = s.entry x := rfl
@[simp] theorem State.notify_sweep (s : State) (p : PortId) (n : Notice) (v : UnitId) : (s.notify p n).sweep v = s.sweep v := rfl
@[simp] theorem State.notify_hold (s : State) (p : PortId) (n : Notice) (j : Nat) : (s.notify p n).hold j = s.hold j := rfl
@[simp] theorem State.notify_slotCard (s : State) (p : PortId) (n : Notice) (m : Nat) : (s.notify p n).slotCard m = s.slotCard m := rfl
@[simp] theorem State.notify_governing (s : State) (p : PortId) (n : Notice) (m : Nat) : (s.notify p n).governing m = s.governing m := rfl
@[simp] theorem State.notify_resolve (s : State) (p : PortId) (n : Notice) (c : CardCode) : (s.notify p n).resolve c = s.resolve c := rfl

/-! ### Records after discardInFlight -/

@[simp] theorem State.discardInFlight_port (s : State) (p : PortId) (q : PortId) : (s.discardInFlight p).port q = s.port q := rfl
@[simp] theorem State.discardInFlight_entry (s : State) (p : PortId) (x : EntryId) : (s.discardInFlight p).entry x = s.entry x := rfl
@[simp] theorem State.discardInFlight_sweep (s : State) (p : PortId) (v : UnitId) : (s.discardInFlight p).sweep v = s.sweep v := rfl
@[simp] theorem State.discardInFlight_hold (s : State) (p : PortId) (j : Nat) : (s.discardInFlight p).hold j = s.hold j := rfl
@[simp] theorem State.discardInFlight_slotCard (s : State) (p : PortId) (m : Nat) : (s.discardInFlight p).slotCard m = s.slotCard m := rfl
@[simp] theorem State.discardInFlight_governing (s : State) (p : PortId) (m : Nat) : (s.discardInFlight p).governing m = s.governing m := rfl
@[simp] theorem State.discardInFlight_resolve (s : State) (p : PortId) (c : CardCode) : (s.discardInFlight p).resolve c = s.resolve c := rfl

/-! ### Records after pushAnswer -/

@[simp] theorem State.pushAnswer_entry (s : State) (p : PortId) (tag : Byte) (a : Answer) (x : EntryId) : (s.pushAnswer p tag a).entry x = s.entry x := rfl
@[simp] theorem State.pushAnswer_sweep (s : State) (p : PortId) (tag : Byte) (a : Answer) (v : UnitId) : (s.pushAnswer p tag a).sweep v = s.sweep v := rfl
@[simp] theorem State.pushAnswer_hold (s : State) (p : PortId) (tag : Byte) (a : Answer) (j : Nat) : (s.pushAnswer p tag a).hold j = s.hold j := rfl
@[simp] theorem State.pushAnswer_slotCard (s : State) (p : PortId) (tag : Byte) (a : Answer) (m : Nat) : (s.pushAnswer p tag a).slotCard m = s.slotCard m := rfl
@[simp] theorem State.pushAnswer_governing (s : State) (p : PortId) (tag : Byte) (a : Answer) (m : Nat) : (s.pushAnswer p tag a).governing m = s.governing m := rfl
@[simp] theorem State.pushAnswer_resolve (s : State) (p : PortId) (tag : Byte) (a : Answer) (c : CardCode) : (s.pushAnswer p tag a).resolve c = s.resolve c := rfl

/-! ### Records after popRequest -/

@[simp] theorem State.popRequest_entry (s : State) (p : PortId) (x : EntryId) : (s.popRequest p).entry x = s.entry x := rfl
@[simp] theorem State.popRequest_sweep (s : State) (p : PortId) (v : UnitId) : (s.popRequest p).sweep v = s.sweep v := rfl
@[simp] theorem State.popRequest_hold (s : State) (p : PortId) (j : Nat) : (s.popRequest p).hold j = s.hold j := rfl
@[simp] theorem State.popRequest_slotCard (s : State) (p : PortId) (m : Nat) : (s.popRequest p).slotCard m = s.slotCard m := rfl
@[simp] theorem State.popRequest_governing (s : State) (p : PortId) (m : Nat) : (s.popRequest p).governing m = s.governing m := rfl
@[simp] theorem State.popRequest_resolve (s : State) (p : PortId) (c : CardCode) : (s.popRequest p).resolve c = s.resolve c := rfl

/-! ### Records after grantTo -/

@[simp] theorem State.grantTo_port (s : State) (c : Claimant) (q : PortId) : (s.grantTo c).port q = s.port q := rfl
@[simp] theorem State.grantTo_entry (s : State) (c : Claimant) (x : EntryId) : (s.grantTo c).entry x = s.entry x := rfl
@[simp] theorem State.grantTo_sweep (s : State) (c : Claimant) (v : UnitId) : (s.grantTo c).sweep v = s.sweep v := rfl
@[simp] theorem State.grantTo_hold (s : State) (c : Claimant) (j : Nat) : (s.grantTo c).hold j = s.hold j := rfl
@[simp] theorem State.grantTo_slotCard (s : State) (c : Claimant) (m : Nat) : (s.grantTo c).slotCard m = s.slotCard m := rfl
@[simp] theorem State.grantTo_governing (s : State) (c : Claimant) (m : Nat) : (s.grantTo c).governing m = s.governing m := rfl
@[simp] theorem State.grantTo_resolve (s : State) (c : Claimant) (d : CardCode) : (s.grantTo c).resolve d = s.resolve d := rfl

/-! ### Read after write -/

theorem State.port_modifyPort (s : State) (p q : PortId) (f : Port → Port) :
    (s.modifyPort p f).port q = if p = q then f (s.port p) else s.port q := by
  simp only [State.port, State.modifyPort, Fin.getElem_fin, Vector.getElem_set, Fin.ext_iff]

@[simp] theorem State.port_modifyPort_self (s : State) (p : PortId) (f : Port → Port) :
    (s.modifyPort p f).port p = f (s.port p) := by
  simp [State.port_modifyPort]

theorem State.port_modifyPort_ne (s : State) {p q : PortId} (h : p ≠ q) (f : Port → Port) :
    (s.modifyPort p f).port q = s.port q := by
  simp [State.port_modifyPort, h]

theorem State.entry_modifyEntry (s : State) (e x : EntryId) (f : SeriesEntry → SeriesEntry) :
    (s.modifyEntry e f).entry x = if e = x then f (s.entry e) else s.entry x := by
  simp only [State.entry, State.modifyEntry, Fin.getElem_fin, Vector.getElem_set, Fin.ext_iff]

@[simp] theorem State.entry_modifyEntry_self (s : State) (e : EntryId) (f : SeriesEntry → SeriesEntry) :
    (s.modifyEntry e f).entry e = f (s.entry e) := by
  simp [State.entry_modifyEntry]

theorem State.sweep_modifySweep (s : State) (u v : UnitId) (f : Sweep → Sweep) :
    (s.modifySweep u f).sweep v = if u = v then f (s.sweep u) else s.sweep v := by
  simp only [State.sweep, State.modifySweep, Fin.getElem_fin, Vector.getElem_set, Fin.ext_iff]

@[simp] theorem State.sweep_modifySweep_self (s : State) (u : UnitId) (f : Sweep → Sweep) :
    (s.modifySweep u f).sweep u = f (s.sweep u) := by
  simp [State.sweep_modifySweep]

theorem mapVec_getElem {α β : Type} {n : Nat} (f : α → β) (v : Vector α n) (i : Nat) (h : i < n) :
    (mapVec f v)[i] = f v[i] := by
  simp [mapVec]

/-- The sweep units after a card record is written (R113). -/
@[simp] theorem State.sweep_setSlotCard (s : State) (n : Nat) (c : Card) (u : UnitId) :
    (s.setSlotCard n c).sweep u = Sweep.drifted n (driftOf (s.slotCard n) c) (s.sweep u) := by
  simp [State.sweep, State.setSlotCard, mapVec_getElem]

/-- Two writes of one port's record are one. -/
theorem State.modifyPort_modifyPort (s : State) (p : PortId) (f g : Port → Port) :
    (s.modifyPort p f).modifyPort p g = s.modifyPort p (g ∘ f) := by
  simp [State.modifyPort, State.port]

/-- Two writes of one sweep unit are one. -/
theorem State.modifySweep_modifySweep (s : State) (u : UnitId) (f g : Sweep → Sweep) :
    (s.modifySweep u f).modifySweep u g = s.modifySweep u (g ∘ f) := by
  simp [State.modifySweep, State.sweep]

/-- A write of a sweep unit reads only that unit. -/
theorem State.modifySweep_const (s : State) (u : UnitId) (f : Sweep → Sweep) :
    s.modifySweep u f = s.modifySweep u fun _ => f (s.sweep u) := rfl

/-- A write of a port reads only that port. -/
theorem State.modifyPort_const (s : State) (p : PortId) (f : Port → Port) :
    s.modifyPort p f = s.modifyPort p fun _ => f (s.port p) := rfl

/-- A notice joins the queue of its port (R171). -/
theorem State.port_notify (s : State) (p q : PortId) (n : Notice) :
    (s.notify p n).port q =
      if p = q then { s.port p with notices := pushNotice n (s.port p).notices } else s.port q :=
  s.port_modifyPort p q _

/-- An answer joins the queue of its port (R154). -/
theorem State.port_pushAnswer (s : State) (p q : PortId) (tag : Byte) (a : Answer) :
    (s.pushAnswer p tag a).port q =
      if p = q then { s.port p with answers := (s.port p).answers ++ [⟨tag, a⟩] } else s.port q :=
  s.port_modifyPort p q _

/-- The head of a request queue leaves it (R31). -/
theorem State.port_popRequest (s : State) (p q : PortId) :
    (s.popRequest p).port q = if p = q then { s.port p with requests := (s.port p).requests.tail } else s.port q :=
  s.port_modifyPort p q _

end Sys2Proof.Machine
end

