-- ==== Sys2Proof/Laws/Table.lean ====
section
/-! SUPPORT. The laws of tables: read after write, and the canonical form kept by every operation. -/

namespace Sys2Proof.Machine

/-! ### Read after write -/

theorem Table.look_drop {α : Type} (d : α) (n m : Nat) (t : Table α) :
    Table.look d (Table.drop n t) m = if n = m then d else Table.look d t m := by
  induction t with
  | nil => simp [Table.drop, Table.look]
  | cons e rest ih =>
    obtain ⟨k, w⟩ := e
    simp only [Table.drop] at ih ⊢
    by_cases hk : k = n
    · subst hk
      rw [List.filter_cons_of_neg (by simp), ih]
      by_cases hm : k = m
      · simp [hm]
      · simp [hm, Table.look]
    · rw [List.filter_cons_of_pos (by simpa using hk)]
      simp only [Table.look, ih]
      by_cases hm : k = m
      · subst hm
        simp [Ne.symm hk]
      · simp [hm]

theorem Table.look_insert {α : Type} (d : α) (n m : Nat) (v : α) (t : Table α) (h : ∀ e ∈ t, e.1 ≠ n) :
    Table.look d (Table.insert n v t) m = if n = m then v else Table.look d t m := by
  induction t with
  | nil => simp [Table.insert, Table.look]
  | cons e rest ih =>
    obtain ⟨k, w⟩ := e
    have hk : k ≠ n := h (k, w) (by simp)
    have hr := ih fun e he => h e (by simp [he])
    simp only [Table.insert]
    split
    · simp [Table.look]
    · simp only [Table.look, hr]
      by_cases hm : k = m
      · subst hm
        simp [Ne.symm hk]
      · simp [hm]

theorem Table.not_mem_drop {α : Type} (n : Nat) (t : Table α) : ∀ e ∈ Table.drop n t, e.1 ≠ n := by
  simp [Table.drop]

/-- Reading a table after a write: the written record at its key, every other record as before. -/
theorem Table.look_put {α : Type} [DecidableEq α] (d : α) (n m : Nat) (v : α) (t : Table α) :
    Table.look d (Table.put d n v t) m = if n = m then v else Table.look d t m := by
  unfold Table.put
  split
  · rename_i h
    rw [Table.look_drop, h]
  · rw [Table.look_insert d n m v _ (Table.not_mem_drop n t), Table.look_drop]
    split <;> simp_all

/-! ### The canonical form -/

theorem Table.wf_nil {α : Type} [DecidableEq α] (d : α) : Table.wf d [] := by
  simp [Table.wf]

theorem Table.wf_drop {α : Type} [DecidableEq α] {d : α} {t : Table α} (n : Nat) (h : Table.wf d t) :
    Table.wf d (Table.drop n t) :=
  ⟨h.1.sublist (List.filter_sublist.map _), fun e he => h.2 e (List.mem_of_mem_filter he)⟩

theorem Table.mem_insert {α : Type} (n : Nat) (v : α) (t : Table α) (e : Nat × α) :
    e ∈ Table.insert n v t ↔ e = (n, v) ∨ e ∈ t := by
  induction t with
  | nil => simp [Table.insert]
  | cons x rest ih =>
    obtain ⟨k, w⟩ := x
    simp only [Table.insert]
    split
    · simp
    · simp only [List.mem_cons, ih]
      tauto

theorem Table.sorted_insert {α : Type} (n : Nat) (v : α) (t : Table α)
    (h : (t.map Prod.fst).Pairwise (· < ·)) (hn : ∀ e ∈ t, e.1 ≠ n) :
    ((Table.insert n v t).map Prod.fst).Pairwise (· < ·) := by
  induction t with
  | nil => simp [Table.insert]
  | cons x rest ih =>
    obtain ⟨k, w⟩ := x
    simp only [List.map_cons, List.pairwise_cons] at h
    have hk : k ≠ n := hn (k, w) (by simp)
    simp only [Table.insert]
    split
    · rename_i hlt
      simp only [List.map_cons, List.pairwise_cons, List.mem_cons]
      refine ⟨?_, h⟩
      rintro a (rfl | ha)
      · exact hlt
      · exact lt_trans hlt (h.1 a ha)
    · simp only [List.map_cons, List.pairwise_cons]
      refine ⟨?_, ih h.2 fun e he => hn e (by simp [he])⟩
      intro a ha
      simp only [List.mem_map] at ha
      obtain ⟨e, he, rfl⟩ := ha
      rcases (Table.mem_insert n v rest e).1 he with rfl | he
      · show k < n
        omega
      · exact h.1 _ (List.mem_map_of_mem he)

/-- A write keeps the canonical form. -/
theorem Table.wf_put {α : Type} [DecidableEq α] {d : α} {t : Table α} (n : Nat) (v : α) (h : Table.wf d t) :
    Table.wf d (Table.put d n v t) := by
  unfold Table.put
  split
  · exact Table.wf_drop n h
  · rename_i hv
    have hd := Table.wf_drop n h
    refine ⟨Table.sorted_insert n v _ hd.1 (Table.not_mem_drop n t), ?_⟩
    intro e he
    rcases (Table.mem_insert n v _ e).1 he with rfl | he
    · exact hv
    · exact hd.2 e he

/-- Writing every record keeps the canonical form. -/
theorem Table.wf_mapRecords {α : Type} [DecidableEq α] {d : α} {t : Table α} (f : α → α) (h : Table.wf d t) :
    Table.wf d (Table.mapRecords d f t) := by
  refine ⟨?_, ?_⟩
  · have hk : ((t.map fun e => (e.1, f e.2)).map Prod.fst) = t.map Prod.fst := by
      simp [Function.comp_def]
    exact (hk ▸ h.1 : ((t.map fun e => (e.1, f e.2)).map Prod.fst).Pairwise (· < ·)).sublist
      (List.filter_sublist.map _)
  · intro e he
    simpa using List.of_mem_filter he

theorem Table.look_of_not_mem {α : Type} (d : α) (t : Table α) (n : Nat) (h : ∀ e ∈ t, e.1 ≠ n) :
    Table.look d t n = d := by
  induction t with
  | nil => rfl
  | cons e rest ih =>
    obtain ⟨k, w⟩ := e
    have hk : k ≠ n := h (k, w) (by simp)
    simp only [Table.look, hk, if_false]
    exact ih fun e he => h e (by simp [he])

theorem Table.look_of_mem {α : Type} (d : α) (t : Table α) (h : (t.map Prod.fst).Pairwise (· < ·)) (n : Nat) (v : α)
    (hm : (n, v) ∈ t) : Table.look d t n = v := by
  induction t with
  | nil => simp at hm
  | cons e rest ih =>
    obtain ⟨k, w⟩ := e
    simp only [List.map_cons, List.pairwise_cons] at h
    simp only [Table.look]
    rcases List.mem_cons.1 hm with heq | hm
    · cases heq
      simp
    · have : k < n := h.1 n (List.mem_map_of_mem hm)
      rw [if_neg (by omega)]
      exact ih h.2 hm

/-- Two canonical tables that read alike at every key are equal data. -/
theorem Table.ext_of_look {α : Type} [DecidableEq α] {d : α} {t u : Table α} (ht : Table.wf d t) (hu : Table.wf d u)
    (h : ∀ n, Table.look d t n = Table.look d u n) : t = u := by
  have mem_iff : ∀ {a b : Table α}, Table.wf d a → Table.wf d b → (∀ n, Table.look d a n = Table.look d b n) →
      ∀ e, e ∈ a → e ∈ b := by
    intro a b ha hb hab e he
    obtain ⟨n, v⟩ := e
    have hv : Table.look d b n = v := by
      rw [← hab, Table.look_of_mem d a ha.1 n v he]
    have hd : v ≠ d := ha.2 _ he
    by_contra hne
    have : Table.look d b n = d ∨ ∃ w, (n, w) ∈ b := by
      by_cases hx : ∃ e ∈ b, e.1 = n
      · obtain ⟨e, heb, rfl⟩ := hx
        exact .inr ⟨e.2, heb⟩
      · exact .inl (Table.look_of_not_mem d b n fun e heb hen => hx ⟨e, heb, hen⟩)
    rcases this with hl | ⟨w, hw⟩
    · exact hd (hv.symm.trans hl)
    · rw [Table.look_of_mem d b hb.1 n w hw] at hv
      exact hne (hv ▸ hw)
  have sorted_ext : ∀ (a b : Table α), (a.map Prod.fst).Pairwise (· < ·) → (b.map Prod.fst).Pairwise (· < ·) →
      (∀ e, e ∈ a ↔ e ∈ b) → a = b := by
    intro a b ha hb hab
    have ha' : a.Pairwise fun x y => x.1 < y.1 := List.pairwise_map.1 ha
    have hb' : b.Pairwise fun x y => x.1 < y.1 := List.pairwise_map.1 hb
    refine List.Perm.eq_of_pairwise (le := fun x y => x.1 < y.1) ?_ ha' hb' ?_
    · intro x y _ _ h1 h2
      omega
    · rw [List.perm_ext_iff_of_nodup (ha'.imp fun h he => by simp [he] at h) (hb'.imp fun h he => by simp [he] at h)]
      exact hab
  exact sorted_ext t u ht.1 hu.1 fun e =>
    ⟨mem_iff ht hu h e, mem_iff hu ht (fun n => (h n).symm) e⟩

/-- Reading a table whose records were all written by an `f` that keeps the power-on record. -/
theorem Table.look_mapRecords {α : Type} [DecidableEq α] {d : α} (f : α → α) (hf : f d = d) (t : Table α) (n : Nat)
    (h : (t.map Prod.fst).Pairwise (· < ·)) :
    Table.look d (Table.mapRecords d f t) n = f (Table.look d t n) := by
  induction t with
  | nil => simp [Table.mapRecords, Table.look, hf]
  | cons e rest ih =>
    obtain ⟨k, w⟩ := e
    simp only [List.map_cons, List.pairwise_cons] at h
    have ih := ih h.2
    simp only [Table.mapRecords, List.map_cons] at ih ⊢
    by_cases hw : f w = d
    · rw [List.filter_cons_of_neg (by simpa using hw), ih]
      simp only [Table.look]
      split
      · rename_i hkn
        subst hkn
        rw [hw, Table.look_of_not_mem d rest k, hf]
        intro e he hek
        have := h.1 e.1 (List.mem_map_of_mem he)
        omega
      · rfl
    · rw [List.filter_cons_of_pos (by simpa using hw)]
      simp only [Table.look, ih]
      split <;> rfl

/-! ### Cards and holds of a state -/

/-- The card records after one is written. -/
theorem State.slotCard_setSlotCard (s : State) (n m : Nat) (c : Card) :
    (s.setSlotCard n c).slotCard m = if n = m then c else s.slotCard m :=
  Table.look_put Card.blank n m c s.cards

/-- The hold records after one is written. -/
theorem State.hold_setHold (s : State) (i j : Nat) (h : Hold) :
    (s.setHold i h).hold j = if i = j then h else s.hold j :=
  Table.look_put Hold.fresh i j h s.holds

/-- The cards of both kinds after one is written: that one, and no other. -/
theorem State.card_setCard (s : State) (r q : CardRef) (c : Card) :
    (s.setCard r c).card q = if r = q then c else s.card q := by
  cases r with
  | real n =>
    cases q with
    | real m => simp [State.setCard, State.card, State.slotCard_setSlotCard]
    | trial t => simp [State.setCard, State.card]
  | trial t =>
    cases q with
    | real m => simp [State.setCard, State.card]
    | trial v =>
      simp only [State.setCard, State.card, State.setTrialCard, Fin.getElem_fin, Vector.getElem_set, CardRef.trial.injEq,
        Fin.ext_iff]

end Sys2Proof.Machine
end

