-- ==== Sys2Proof/Laws/Ops.lean ====
section
/-! SUPPORT. What one write of a port leaves, what the start of a grant, a whole grant, and a local answer do, said once. -/

namespace Sys2Proof.Machine

/-- What a state is whose ports are those of `s` but for one. -/
theorem OnePort.of_ports {s w : State} {p : PortId} {port : Port} (h : w.ports = s.ports.set p.val port p.isLt) :
    OnePort s w p port := by
  refine ⟨by simp [State.port, h], fun q hq => ?_⟩
  have hv : p.val ≠ q.val := fun e => hq (Fin.ext e.symm)
  simp [State.port, h, hv]

/-- A write of one port's record leaves every other port as it was. -/
theorem onePort_modifyPort (s : State) (p : PortId) (f : Port → Port) :
    OnePort s (s.modifyPort p f) p (f (s.port p)) :=
  .of_ports rfl

theorem State.modifyPort_congr {s : State} {p : PortId} {f g : Port → Port} (h : f (s.port p) = g (s.port p)) :
    s.modifyPort p f = s.modifyPort p g := by
  rw [State.modifyPort_const, State.modifyPort_const s p g, h]

/-- A port answers the request at the head of its queue with work that changes nothing (R156). -/
theorem State.answerLocal_of_head {s : State} {p : PortId} {tag : Byte} {r : Request} {rest : List QueuedRequest}
    (h : (s.port p).requests = ⟨tag, r⟩ :: rest) (hi : s.inFlightAt p = false)
    {select : Request → Option (State → State × Answer)} {work : State → State × Answer} (hs : select r = some work)
    (hp : r.permitted (s.port p).role p = true) {a : Answer} (hw : work (s.popRequest p) = (s.popRequest p, a)) :
    s.answerLocal p select =
      s.modifyPort p fun port => { port with requests := rest, answers := port.answers ++ [⟨tag, a⟩] } := by
  have hr : ((s.popRequest p).port p).role = (s.port p).role := by simp [State.port_popRequest]
  have : s.answerLocal p select = (s.popRequest p).pushAnswer p tag a := by
    simp [State.answerLocal, h, hs, hi, hr, hp, hw]
  rw [this, State.pushAnswer, State.popRequest, State.modifyPort_modifyPort]
  exact State.modifyPort_congr (by simp [h])

/-- A port answers NOT-PERMITTED to a port-local request its present role does not permit (R153). -/
theorem State.answerLocal_of_unpermitted {s : State} {p : PortId} {tag : Byte} {r : Request}
    {rest : List QueuedRequest} (h : (s.port p).requests = ⟨tag, r⟩ :: rest) (hi : s.inFlightAt p = false)
    {select : Request → Option (State → State × Answer)} {work : State → State × Answer} (hs : select r = some work)
    (hp : r.permitted (s.port p).role p = false) :
    s.answerLocal p select =
      s.modifyPort p fun port =>
        { port with requests := rest, answers := port.answers ++ [⟨tag, .plain .notPermitted⟩] } := by
  have hr : ((s.popRequest p).port p).role = (s.port p).role := by simp [State.port_popRequest]
  have : s.answerLocal p select = (s.popRequest p).pushAnswer p tag (.plain .notPermitted) := by
    simp [State.answerLocal, h, hs, hi, hr, hp]
  rw [this, State.pushAnswer, State.popRequest, State.modifyPort_modifyPort]
  exact State.modifyPort_congr (by simp [h])

/-- The grant row of a request runs the work its meaning selects, on the state the request meets. -/
theorem State.runGrant_of_granted {s s1 : State} {p : PortId} {tag : Byte} {r : Request} (h : Granted s p tag r s1)
    {select : PortId → Request → Option (State → Done)} {work : State → Done} (hs : select p r = some work) :
    s.runGrant select = ((work s1).state.answering s p tag (work s1).answer).finish (work s1).tail := by
  obtain ⟨h1, rfl, h3⟩ := h
  simp [State.runGrant, h1, hs, State.grantRequest, h3, State.answering]

/-- The grant row of a request the present role does not permit. -/
theorem State.runGrant_of_unpermitted {s : State} {p : PortId} {tag : Byte} {r : Request}
    (h : s.nextRequest = some (p, ⟨tag, r⟩)) (hp : r.permitted ((s.startGrant p r).port p).role p = false)
    {select : PortId → Request → Option (State → Done)} {work : State → Done} (hs : select p r = some work) :
    s.runGrant select = (s.startGrant p r).answering s p tag (.plain .notPermitted) := by
  simp [State.runGrant, h, hs, State.grantRequest, hp, State.answering, State.only, State.finish]

/-- A grant row changes nothing when the ring's choice is no port's request. -/
theorem State.runGrant_of_no_request {s : State} (h : s.nextRequest = none)
    (select : PortId → Request → Option (State → Done)) : s.runGrant select = s := by
  simp [State.runGrant, h]

/-- A grant row changes nothing when the ring's choice is a request of another row. -/
theorem State.runGrant_of_not_selected {s : State} {p : PortId} {q : QueuedRequest} (h : s.nextRequest = some (p, q))
    {select : PortId → Request → Option (State → Done)} (hs : select p q.request = none) : s.runGrant select = s := by
  simp [State.runGrant, h, hs]

theorem State.dropClose_opened {s : State} (h : s.accounts.close = .opened) (cause : Option DropCause) :
    s.dropClose cause = s := by
  simp [State.dropClose, h]

theorem State.dropClose_closing {s : State} {owner : PortId} {frozen : Figures} {deadline : Nat}
    (h : s.accounts.close = .closing owner frozen deadline) (c : DropCause) :
    s.dropClose (some c) =
      { s with accounts := s.accounts.merged }.notify owner (.closeDropped s.accounts.day c) := by
  simp [State.dropClose, h]

theorem CloseState.owner?_eq_some {c : CloseState} {p : PortId} :
    c.owner? = some p ↔ ∃ frozen deadline, c = .closing p frozen deadline := by
  cases c <;> simp [CloseState.owner?]

/-- The drop of a close the port owns: the day sets merge and the notice goes to the port. -/
theorem State.dropCloseOf_of_owner {s : State} {p : PortId} (h : s.accounts.close.owner? = some p) (c : DropCause) :
    s.dropCloseOf p c = { s with accounts := s.accounts.merged }.notify p (.closeDropped s.accounts.day c) := by
  obtain ⟨f, d, hc⟩ := CloseState.owner?_eq_some.mp h
  simp [State.dropCloseOf, h, State.dropClose_closing hc]

theorem State.dropCloseOf_of_not_owner {s : State} {p : PortId} (h : s.accounts.close.owner? ≠ some p) (c : DropCause) :
    s.dropCloseOf p c = s := by
  simp [State.dropCloseOf, h]

/-- The drop the window comparison makes at or after the deadline: as a drop of cause WINDOW, and a STATUS during a grant
reads the close as dropped. -/
theorem State.windowCheck_due {s : State} {owner : PortId} {frozen : Figures} {deadline : Nat}
    (h : s.accounts.close = .closing owner frozen deadline) (hd : deadline ≤ s.clock.time) :
    s.windowCheck =
      { ({ s with accounts := s.accounts.merged } : State).notify owner (.closeDropped s.accounts.day .window) with
        inFlight := s.inFlight.map fun f => { f with before := { f.before with close := none } } } := by
  simp only [State.windowCheck, h, hd, if_true, State.dropClose_closing h]
  simp [State.showDrop, h, CloseState.owner?, State.notify, Accounts.merged]

theorem State.windowCheck_ahead {s : State} (h : ∀ o f d, s.accounts.close = .closing o f d → s.clock.time < d) :
    s.windowCheck = s := by
  unfold State.windowCheck
  split
  · rfl
  · rename_i o f d hc
    simp [not_le.mpr (h o f d hc)]

end Sys2Proof.Machine
end

