-- ==== Sys2Proof/Laws/Holds.lean ====
section
/-! SUPPORT. What a write of a card, opening a hold and freeing a hold leave: each operation's whole effect in one lemma. -/

namespace Sys2Proof.Machine

/-! ### One card written -/

/-- `w` is `s` with the card `ref` names written to `c`, both drifts following, and nothing else changed. -/
structure CardWritten (s w : State) (ref : CardRef) (c : Card) : Prop where
  one : OneCard s w ref c
  drifts : DriftsFollow s w ref
  rest : w = { s with cards := w.cards, trialCards := w.trialCards, sweeps := w.sweeps }

theorem Drift.add_zero (d : Drift) : d.add .zero = d := by
  simp [Drift.add, Drift.zero]

/-- Two changes of one card, one after the other, are the change from the first record to the last. -/
theorem afterChange_afterChange (w : Sweep) (ref : CardRef) (a b c : Card) :
    afterChange (afterChange w ref a b) ref b c = afterChange w ref a c := by
  cases ref with
  | trial t => rfl
  | real slot =>
    have hk : ({ w with drift := w.drift.add (driftOf a b) } : Sweep).hasTallied slot = w.hasTallied slot := rfl
    simp only [afterChange, Sweep.drifted]
    split
    · simp only [*, if_true]
      congr 1
      simp only [Drift.add, driftOf, Drift.mk.injEq]
      refine ⟨?_, ?_, ?_⟩ <;> ring
    · simp [*]

/-- The sweep units after one card is written. -/
theorem State.sweep_setCard (s : State) (ref : CardRef) (c : Card) (u : UnitId) :
    (s.setCard ref c).sweep u = afterChange (s.sweep u) ref (s.card ref) c := by
  cases ref with
  | trial t => rfl
  | real slot => exact State.sweep_setSlotCard s slot c u

theorem cardWritten_setCard (s : State) (ref : CardRef) (c : Card) : CardWritten s (s.setCard ref c) ref c := by
  refine ⟨⟨by simp [State.card_setCard], fun q hq => by simp [State.card_setCard, Ne.symm hq]⟩, fun u => ?_, ?_⟩
  · simp [State.sweep_setCard, State.card_setCard]
  · cases ref <;> rfl

/-- Two writes of one card are one. -/
theorem CardWritten.trans {s t w : State} {ref : CardRef} {b c : Card} (h1 : CardWritten s t ref b)
    (h2 : CardWritten t w ref c) : CardWritten s w ref c := by
  refine ⟨⟨h2.one.written, fun q hq => (h2.one.others q hq).trans (h1.one.others q hq)⟩, fun u => ?_, ?_⟩
  · rw [h2.drifts u, h1.drifts u, h1.one.written, h2.one.written, afterChange_afterChange]
  · rw [h2.rest, h1.rest]

/-- Last activity written after a write of the same card. -/
theorem CardWritten.noteActivity {s t : State} {ref : CardRef} {c : Card} (h : CardWritten s t ref c) (p : PortId)
    (till : TillId) (kind : ActivityKind) :
    CardWritten s (t.noteActivity ref p till kind) ref { c with last := some ⟨p, till, s.clock.time, kind⟩ } := by
  have h2 := cardWritten_setCard t ref { t.card ref with last := some ⟨p, till, t.clock.time, kind⟩ }
  have ht : t.clock = s.clock := by rw [h.rest]
  rw [h.one.written, ht] at h2
  have : t.noteActivity ref p till kind = t.setCard ref { c with last := some ⟨p, till, s.clock.time, kind⟩ } := by
    simp [State.noteActivity, h.one.written, ht]
  rw [this]
  exact h.trans h2

/-! ### The open-hold counts -/

theorem State.countHold_rest (s : State) (ref : CardRef) (f : Nat → Nat) :
    s.countHold ref f = { s with series := (s.countHold ref f).series } := by
  unfold State.countHold
  cases ref with
  | trial t => rfl
  | real slot => dsimp only; split <;> rfl

theorem countMoves_countHold (s : State) (ref : CardRef) (f : Nat → Nat) :
    CountMoves s (s.countHold ref f) ref f := by
  intro e
  unfold State.countHold
  cases ref with
  | trial t => rfl
  | real slot =>
    dsimp only
    split
    · rename_i o h
      rw [State.entry_modifyEntry]
      by_cases ho : o = e
      · subst ho; simp [h]
      · simp [h, ho]
    · rename_i h; simp [h]

theorem CountMoves.of_series {s t w : State} {ref : CardRef} {f : Nat → Nat} (h : t.series = s.series)
    (hc : CountMoves t w ref f) : CountMoves s w ref f := by
  have he : ∀ e, t.entry e = s.entry e := fun e => by simp [State.entry, h]
  have hg : ∀ n, t.governing n = s.governing n := fun n => by simp [State.governing, he]
  intro e
  have := hc e
  cases ref with
  | trial n => exact this.trans (he e)
  | real slot => simpa only [hg, he] using this

/-! ### A hold opened, a hold freed -/

/-- `w` is `s` with hold `i` written to `h`, the card `ref` names to `c`, the drifts following, the open-hold count moved by
`f`, the two lists as given, and nothing else changed. -/
structure HoldMoved (s w : State) (i : Nat) (h : Hold) (ref : CardRef) (c : Card) (f : Nat → Nat)
    (free expiry : List Nat) : Prop where
  hold : OneHold s w i h
  card : OneCard s w ref c
  drifts : DriftsFollow s w ref
  count : CountMoves s w ref f
  free : w.freeList = free
  expiry : w.expiry = expiry
  rest : w = { s with
    cards := w.cards, trialCards := w.trialCards, sweeps := w.sweeps, holds := w.holds, freeList := w.freeList,
    expiry := w.expiry, series := w.series }

theorem holdMoved_of_writes (s : State) (i : Nat) (h : Hold) (ref : CardRef) (c : Card) (f : Nat → Nat)
    (free expiry : List Nat) :
    HoldMoved s
      (State.countHold { (s.setCard ref c).setHold i h with freeList := free, expiry := expiry } ref f)
      i h ref c f free expiry := by
  have hc := cardWritten_setCard s ref c
  generalize s.setCard ref c = t at hc ⊢
  have h1 := countMoves_countHold { t.setHold i h with freeList := free, expiry := expiry } ref f
  have h2 := State.countHold_rest { t.setHold i h with freeList := free, expiry := expiry } ref f
  generalize State.countHold _ ref f = w at h1 h2 ⊢
  have hh : ∀ j, w.hold j = if i = j then h else t.hold j := by
    intro j; rw [h2]; exact State.hold_setHold t i j h
  have hcard : ∀ q, w.card q = t.card q := by
    intro q; rw [h2]; cases q <;> rfl
  have hsw : ∀ u, w.sweep u = t.sweep u := by
    intro u; rw [h2]; rfl
  have ht : t.holds = s.holds ∧ t.series = s.series := by rw [hc.rest]; exact ⟨rfl, rfl⟩
  have hht : ∀ j, t.hold j = s.hold j := fun j => by simp [State.hold, ht.1]
  refine ⟨⟨by simp [hh], fun j hj => by simp [hh, Ne.symm hj, hht]⟩, ⟨(hcard ref).trans hc.one.written,
    fun q hq => (hcard q).trans (hc.one.others q hq)⟩, fun u => ?_, h1.of_series ht.2, by rw [h2], by rw [h2], ?_⟩
  · rw [hsw, hcard, hc.drifts u]
  · rw [h2, hc.rest]; rfl

/-- Freeing a hold (R46). -/
theorem holdMoved_freeHold (s : State) (i : Nat) :
    HoldMoved s (s.freeHold i) i { s.hold i with isOpen := false, generation := (s.hold i).generation + 1 }
      (s.hold i).card
      { s.card (s.hold i).card with
        chain := (s.card (s.hold i).card).chain.erase i
        held := (s.card (s.hold i).card).held - (s.hold i).amount }
      (· - 1) (s.freeList ++ [i]) (s.expiry.erase i) := by
  unfold State.freeHold
  exact holdMoved_of_writes s i _ _ _ _ _ _

/-- Opening a hold (R45). -/
theorem holdMoved_openHold (s : State) (i : Nat) (ref : CardRef) (p : PortId) (till : TillId) (amount lifetime : Nat)
    (long : Bool) :
    HoldMoved s (s.openHold i ref p till amount lifetime long) i
      (openedHold (s.hold i).generation ref p till amount s.clock.time (deadlineAfter s.clock.time lifetime) long) ref
      { s.card ref with chain := (s.card ref).chain ++ [i], held := (s.card ref).held + amount }
      (· + 1) s.freeList.tail
      (enterExpiry (fun j => (s.hold j).deadline) i (deadlineAfter s.clock.time lifetime) s.expiry) := by
  unfold State.openHold
  exact holdMoved_of_writes s i _ _ _ _ _ _

/-- The card written again after a hold was moved. -/
theorem HoldMoved.then_card {s t w : State} {i : Nat} {h : Hold} {ref : CardRef} {b c : Card} {f : Nat → Nat}
    {free expiry : List Nat} (h1 : HoldMoved s t i h ref b f free expiry) (h2 : CardWritten t w ref c) :
    HoldMoved s w i h ref c f free expiry := by
  have hf : w.holds = t.holds ∧ w.series = t.series ∧ w.freeList = t.freeList ∧ w.expiry = t.expiry := by
    rw [h2.rest]; exact ⟨rfl, rfl, rfl, rfl⟩
  have hh : ∀ j, w.hold j = t.hold j := fun j => by simp [State.hold, hf.1]
  have he : ∀ e, w.entry e = t.entry e := fun e => by simp [State.entry, hf.2.1]
  refine ⟨⟨(hh i).trans h1.hold.written, fun j hj => (hh j).trans (h1.hold.others j hj)⟩, ⟨h2.one.written,
    fun q hq => (h2.one.others q hq).trans (h1.card.others q hq)⟩, fun u => ?_, fun e => (he e).trans (h1.count e),
    hf.2.2.1.trans h1.free, hf.2.2.2.trans h1.expiry, ?_⟩
  · rw [h2.drifts u, h1.drifts u, h1.card.written, h2.one.written, afterChange_afterChange]
  · rw [h2.rest, h1.rest]

/-- Last activity written after a hold was moved. -/
theorem HoldMoved.noteActivity {s t : State} {i : Nat} {h : Hold} {ref : CardRef} {c : Card} {f : Nat → Nat}
    {free expiry : List Nat} (h1 : HoldMoved s t i h ref c f free expiry) (p : PortId) (till : TillId)
    (kind : ActivityKind) :
    HoldMoved s (t.noteActivity ref p till kind) i h ref { c with last := some ⟨p, till, s.clock.time, kind⟩ } f free
      expiry := by
  have ht : t.clock = s.clock := by rw [h1.rest]
  have hw : t.noteActivity ref p till kind = t.setCard ref { c with last := some ⟨p, till, s.clock.time, kind⟩ } := by
    simp [State.noteActivity, h1.card.written, ht]
  rw [hw]
  exact h1.then_card (cardWritten_setCard t ref _)

/-- Entering an index into the expiry list (R43). -/
theorem enteredAt_enterExpiry (deadlineOf : Nat → Nat) (i d : Nat) (l : List Nat) :
    EnteredAt deadlineOf i d l (enterExpiry deadlineOf i d l) := by
  induction l with
  | nil => exact ⟨[], [], rfl, rfl, by simp, by simp⟩
  | cons j rest ih =>
    unfold enterExpiry
    split
    · rename_i h
      exact ⟨[], j :: rest, rfl, rfl, by simp, by simpa using h⟩
    · rename_i h
      obtain ⟨front, rear, h1, h2, h3, h4⟩ := ih
      refine ⟨j :: front, rear, by rw [h1]; rfl, by rw [h2]; rfl, ?_, h4⟩
      simpa using ⟨not_lt.mp h, h3⟩

/-! ### Reported movements -/

/-- A movement's report (R123, R125). -/
theorem State.report_accounts (s : State) (ref : CardRef) (m : Movement) :
    s.report ref m = { s with accounts := afterMovement s.accounts ref m.figures } := by
  cases ref with
  | trial t => rfl
  | real n =>
    rcases h : s.accounts.close <;> simp [State.report, Accounts.report, afterMovement, h]

/-- A movement reported after a write of the card it is on. -/
theorem CardWritten.report {s t : State} {ref : CardRef} {c : Card} (h : CardWritten s t ref c) (m : Movement) :
    OneCard s (t.report ref m) ref c ∧ DriftsFollow s (t.report ref m) ref ∧
      (t.report ref m).accounts = afterMovement s.accounts ref m.figures ∧
      t.report ref m = { s with
        cards := (t.report ref m).cards, trialCards := (t.report ref m).trialCards, sweeps := (t.report ref m).sweeps,
        accounts := (t.report ref m).accounts } := by
  rw [State.report_accounts]
  have hacc : t.accounts = s.accounts := by rw [h.rest]
  have hc : ∀ q, State.card { t with accounts := afterMovement t.accounts ref m.figures } q = t.card q := by
    intro q; cases q <;> rfl
  refine ⟨⟨(hc _).trans h.one.written, fun q hq => (hc q).trans (h.one.others q hq)⟩, fun u => ?_, by rw [← hacc], ?_⟩
  · rw [hc]; exact h.drifts u
  · rw [h.rest]

end Sys2Proof.Machine
end

