-- ==== Sys2Proof/Laws/Sweeps.lean ====
section
/-! SUPPORT. What the notices at the end of a sweep leave. -/

namespace Sys2Proof.Machine

/-- HOLDS-PURGED changes notice queues only (R117). -/
theorem State.notifyPurged_rest (s : State) (w : Sweep) :
    s.notifyPurged w = { s with ports := (s.notifyPurged w).ports } := by
  unfold State.notifyPurged
  split
  · split <;> rfl
  · rfl

theorem State.sweep_notifyPurged (s : State) (w : Sweep) (v : UnitId) : (s.notifyPurged w).sweep v = s.sweep v := by
  rw [State.notifyPurged_rest]; rfl

/-- The end of a sweep changes its unit and notice queues only (R105). -/
theorem State.endSweep_rest (s : State) (u : UnitId) (reason : SweepReason) (slot : Option Nat) :
    s.endSweep u reason slot =
      { s with sweeps := (s.endSweep u reason slot).sweeps, ports := (s.endSweep u reason slot).ports } := by
  unfold State.endSweep
  simp only [State.notify, State.modifyPort]
  rw [State.notifyPurged_rest]
  rfl

/-- The end of a sweep makes its unit IDLE and leaves the other (R105). -/
theorem State.sweep_endSweep (s : State) (u v : UnitId) (reason : SweepReason) (slot : Option Nat) :
    (s.endSweep u reason slot).sweep v = if u = v then { s.sweep u with running := false } else s.sweep v := by
  unfold State.endSweep
  rw [State.notify_sweep, State.sweep_notifyPurged, State.sweep_modifySweep]

end Sys2Proof.Machine
end

