-- ==== Sys2Proof/Laws/Checks.lean ====
section
/-! SUPPORT. The checks of RESERVE, REDEEM and LOAD, and tag matching, each said once. -/

namespace Sys2Proof.Machine

/-- The amount a sale finds (R51, R76). -/
theorem amountFound_eq_some {asked available : Nat} {honoured : Bool} {amount : Nat} :
    amountFound asked available honoured = some amount ↔ AmountFound available asked honoured amount := by
  unfold amountFound AmountFound
  by_cases h0 : available = 0
  · simp [h0]
  · by_cases h1 : asked ≤ available
    · simp [h0, h1, not_lt.mpr h1, eq_comm]
    · cases honoured <;> simp [h0, h1, not_le.mp h1, eq_comm]

/-- A sale finds no amount: nothing available, or less than asked and no honoured partial flag (R51). -/
theorem amountFound_eq_none {asked available : Nat} {honoured : Bool} :
    amountFound asked available honoured = none ↔ available = 0 ∨ (available < asked ∧ honoured = false) := by
  unfold amountFound
  by_cases h0 : available = 0
  · simp [h0]
  · by_cases h1 : asked ≤ available
    · simp [h0, h1, not_lt.mpr h1]
    · cases honoured <;> simp [h0, h1, not_le.mp h1]

/-- The use-limit check refuses exactly when no use is allowed (R17, R50). -/
theorem useLimit_reached_iff (limit : Nat) (c : Card) (day : Nat) :
    (limit ≠ 0 ∧ limit ≤ c.todaysUses day) ↔ ¬UseAllowed limit c day := by
  simp only [UseAllowed, not_or, not_lt, Card.todaysUses, ne_eq]

/-- The checks of a sale once its port, card and card state pass (R50 checks 4 and 5). -/
theorem saleCheck_active {s : State} {p : PortId} {code : CardCode} {t : Target} (h1 : (s.port p).health ≠ .muted)
    (h2 : s.target p code = some t) (h3 : (s.card t.ref).state = .active) (asked : Nat) (flag : Bool) :
    saleCheck p code asked flag s =
      if t.rules.useLimit ≠ 0 ∧ t.rules.useLimit ≤ (s.card t.ref).todaysUses s.accounts.day then
        .refused (.plain .useLimit)
      else
        match amountFound asked (s.card t.ref).available (flag && t.rules.partialAllowed) with
        | none => .refused (.noFunds t.ref.isTrial (s.card t.ref).available)
        | some amount => .passed t amount := by
  simp only [saleCheck, h1, h2, h3, CardState.refusal, if_false]
  try rfl

/-- A sale that passes its first five checks (R50, R75). -/
theorem saleCheck_passed {s : State} {p : PortId} {code : CardCode} {t : Target} (h1 : (s.port p).health ≠ .muted)
    (h2 : s.target p code = some t) (h3 : (s.card t.ref).state = .active)
    (h4 : UseAllowed t.rules.useLimit (s.card t.ref) s.accounts.day) {asked amount : Nat} {flag : Bool}
    (h5 : AmountFound ((s.card t.ref).value - (s.card t.ref).held) asked (flag && t.rules.partialAllowed) amount) :
    saleCheck p code asked flag s = .passed t amount := by
  rw [saleCheck_active h1 h2 h3, if_neg (by rw [useLimit_reached_iff]; exact not_not.mpr h4)]
  rw [show (s.card t.ref).available = (s.card t.ref).value - (s.card t.ref).held from rfl,
    amountFound_eq_some.mpr h5]

/-- The tag of a hold names its index and its generation (R40). -/
theorem tagIndex_holdTag {i : Nat} (h : i < 4096) (g : BitVec 4) : tagIndex (holdTag i g) = i := by
  have : (holdTag i g).extractLsb' 0 12 = BitVec.ofNat 12 i := by
    apply BitVec.eq_of_getLsbD_eq
    intro j hj
    rw [holdTag, BitVec.getLsbD_extractLsb', BitVec.getLsbD_append]
    simp [hj]
  rw [tagIndex, this, BitVec.toNat_ofNat, Nat.mod_eq_of_lt (by omega)]

theorem tagGeneration_holdTag (i : Nat) (g : BitVec 4) : tagGeneration (holdTag i g) = g := by
  apply BitVec.eq_of_getLsbD_eq
  intro j hj
  rw [tagGeneration, holdTag, BitVec.getLsbD_extractLsb', BitVec.getLsbD_append]
  simp [hj, show ¬12 + j < 12 by omega]

/-- Tag matching, for the tag of an index and a generation (R47). -/
theorem State.matchTag_holdTag (s : State) (p : PortId) {i : Nat} (h : i < 4096) (g : BitVec 4) :
    s.matchTag p (holdTag i g) =
      if (s.hold i).isOpen = true ∧ (s.hold i).generation = g then
        if (s.hold i).owner = p then .matched i else .notYours
      else .gone := by
  simp only [State.matchTag, tagIndex_holdTag h, tagGeneration_holdTag]

end Sys2Proof.Machine
end

