-- ==== Sys2Proof/Laws/Bytes.lean ====
section
/-! SUPPORT. The bytes of a frame into the receiver, numbers into bytes and back, and each field read back as it was sent. -/

namespace Sys2Proof.Machine

/-! ### The receiver -/
theorem State.receiverTo_receiverTo (s : State) (p : PortId) (a b : Receiver) :
    (s.receiverTo p a).receiverTo p b = s.receiverTo p b := by
  simp only [State.receiverTo, State.modifyPort_modifyPort]; rfl

/-- The body bytes of a frame, taken one by one (R149). -/
theorem receiveByte_body (s : State) (p : PortId) (h : s.resetLow = false) (n : Nat) (rest got : List Byte)
    (hne : rest ≠ []) (hl : got.length + rest.length = n) :
    rest.foldl (fun w b => w.receiveByte p b) (s.receiverTo p (.body n got)) =
      s.receiverTo p (.check (got ++ rest) none) := by
  induction rest generalizing got with
  | nil => exact absurd rfl hne
  | cons b rest ih =>
    rw [List.foldl_cons]
    have hr : (s.receiverTo p (.body n got)).resetLow = false := h
    have hrec : ((s.receiverTo p (.body n got)).port p).receiver = .body n got := by simp [State.receiverTo]
    rw [State.receiveByte, hr, hrec]
    simp only [Bool.false_eq_true, if_false, State.receiverTo_receiverTo]
    rcases rest with _ | ⟨c, rest⟩
    · rw [if_pos (by simp at hl; omega)]; rfl
    · rw [if_neg (by simp at hl; omega), ih _ (by simp) (by simp at hl ⊢; omega)]
      simp

/-! ### Numbers in bytes, and back (11.2) -/
@[simp] theorem natBytes_length (n v : Nat) : (natBytes n v).length = n := by
  induction n generalizing v with
  | zero => rfl
  | succ n ih => simp [natBytes, ih]

theorem bytesNat_append (a b : List Byte) : bytesNat (a ++ b) = bytesNat a * 256 ^ b.length + bytesNat b := by
  have : ∀ (b : List Byte) (acc : Nat), b.foldl (fun acc b => acc * 256 + b.toNat) acc = acc * 256 ^ b.length + bytesNat b := by
    intro b
    induction b with
    | nil => intro acc; simp [bytesNat]
    | cons x b ih =>
      intro acc
      simp only [List.foldl_cons, List.length_cons, bytesNat]
      rw [ih, ih (0 * 256 + x.toNat)]; ring
  rw [bytesNat, List.foldl_append, this]; rfl

theorem bytesNat_natBytes (n v : Nat) (h : v < 256 ^ n) : bytesNat (natBytes n v) = v := by
  suffices ∀ n v, bytesNat (natBytes n v) = v % 256 ^ n by rw [this, Nat.mod_eq_of_lt h]
  clear h n v
  intro n
  induction n with
  | zero => intro v; simp [natBytes, bytesNat, Nat.mod_one]
  | succ n ih =>
    intro v
    have : natBytes (n+1) v = [BitVec.ofNat 8 (v / 256 ^ n)] ++ natBytes n v := rfl
    rw [this, bytesNat_append, ih, natBytes_length]
    simp only [bytesNat, List.foldl_cons, List.foldl_nil, BitVec.toNat_ofNat, zero_mul, zero_add]
    have := Nat.mod_mul (x := v) (a := 256 ^ n) (b := 256)
    rw [show (2:Nat) ^ 8 = 256 from rfl, pow_succ, this]
    ring

theorem bytesNat_lt (bytes : List Byte) : bytesNat bytes < 256 ^ bytes.length := by
  induction bytes with
  | nil => simp [bytesNat]
  | cons b bytes ih =>
    have hb : bytesNat [b] < 256 := by simp only [bytesNat, List.foldl_cons, List.foldl_nil]; omega
    have h : bytesNat (b :: bytes) = bytesNat [b] * 256 ^ bytes.length + bytesNat bytes := bytesNat_append [b] bytes
    have hm : (bytesNat [b] + 1) * 256 ^ bytes.length ≤ 256 * 256 ^ bytes.length := Nat.mul_le_mul_right _ hb
    rw [h, List.length_cons, pow_succ, Nat.mul_comm _ 256]
    rw [Nat.add_mul, Nat.one_mul] at hm
    omega

/-- A field of `n` bytes holds a number below 256^n. -/
theorem fieldNat_lt (f : List Byte) (offset n : Nat) : fieldNat f offset n < 256 ^ n :=
  lt_of_lt_of_le (bytesNat_lt _) (Nat.pow_le_pow_right (by decide) (List.length_take_le _ _))

/-! ### Fields laid out by width (11.4, 11.5) -/
@[simp] theorem laidOut_nil : laidOut [] = [] := rfl

theorem natBytes_eq_map (n v : Nat) :
    natBytes n v = (List.range n).map fun i => BitVec.ofNat 8 (v / 256 ^ (n - 1 - i)) := by
  induction n with
  | zero => rfl
  | succ n ih =>
    rw [natBytes, ih, List.range_succ_eq_map, List.map_cons, List.map_map]
    simp only [Nat.add_sub_cancel, Nat.sub_zero, Function.comp_def]
    congr 1
    exact List.map_congr_left fun i _ => by rw [Nat.sub_sub, Nat.add_comm 1 i]

@[simp] theorem laidOut_cons (f : Nat × Nat) (rest : List (Nat × Nat)) :
    laidOut (f :: rest) = natBytes f.1 f.2 ++ laidOut rest := by
  rw [natBytes_eq_map]; rfl

@[simp] theorem laidOut_append (a b : List (Nat × Nat)) : laidOut (a ++ b) = laidOut a ++ laidOut b :=
  List.flatMap_append

/-- The bytes of laid-out fields are as many as their widths add up to. -/
theorem laidOut_length (fields : List (Nat × Nat)) : (laidOut fields).length = (fields.map Prod.fst).sum := by
  induction fields with
  | nil => rfl
  | cons f rest ih => simp [ih]

/-- One byte as a field of width one. -/
theorem natBytes_byte (b : Byte) : natBytes 1 b.toNat = [b] := by
  simp [natBytes]

/-- A flag as a field of width one. -/
theorem natBytes_bool (b : Bool) : natBytes 1 b.toNat = [boolByte b] := by
  cases b <;> rfl

theorem fieldNat_append_left (a b : List Byte) (offset n : Nat) (h : a.length ≤ offset) :
    fieldNat (a ++ b) offset n = fieldNat b (offset - a.length) n := by
  simp [fieldNat, List.drop_append, List.drop_eq_nil_of_le h]

theorem fieldNat_zero (a b : List Byte) : fieldNat (a ++ b) 0 a.length = bytesNat a := by
  simp [fieldNat]

theorem fieldNat_zero' (a b : List Byte) (n) (h : a.length = n) : fieldNat (a ++ b) 0 n = bytesNat a := by
  subst h; exact fieldNat_zero a b

theorem fieldNat_all (a : List Byte) (n) (h : a.length = n) : fieldNat a 0 n = bytesNat a := by
  have := fieldNat_zero' a [] n h; simpa using this

theorem fieldNat_skip (k v off n : Nat) (rest : List Byte) (h : k ≤ off) :
    fieldNat (natBytes k v ++ rest) off n = fieldNat rest (off - k) n := by
  rw [fieldNat_append_left _ _ _ _ (by rw [natBytes_length]; exact h), natBytes_length]

theorem fieldNat_here (k v : Nat) (rest : List Byte) (h : v < 256 ^ k) :
    fieldNat (natBytes k v ++ rest) 0 k = v := by
  rw [fieldNat_zero' _ _ _ (natBytes_length k v), bytesNat_natBytes k v h]

theorem fieldNat_last (k v : Nat) (h : v < 256 ^ k) :
    fieldNat (natBytes k v) 0 k = v := by
  rw [fieldNat_all _ _ (natBytes_length k v), bytesNat_natBytes k v h]

theorem fieldNat_cons (x : Byte) (rest : List Byte) (off n : Nat) (h : 1 ≤ off) :
    fieldNat (x :: rest) off n = fieldNat rest (off - 1) n := by
  obtain ⟨o, rfl⟩ : ∃ o, off = o + 1 := ⟨off - 1, by omega⟩
  rfl

theorem fieldNat_head (x : Byte) (rest : List Byte) : fieldNat (x :: rest) 0 1 = x.toNat := by
  simp [fieldNat, bytesNat]

theorem bool_head (b : Bool) (rest : List Byte) : fieldBool (boolByte b :: rest) 0 = some b := by
  cases b <;> rfl

theorem code_lt (c : CardCode) : c.toNat < 256 ^ 6 := c.isLt

theorem pair_lt (c : BitVec 16) : c.toNat < 256 ^ 2 := c.isLt

theorem fieldBool_eq (f off) (b : Bool) (h : fieldNat f off 1 = (boolByte b).toNat) : fieldBool f off = some b := by
  unfold fieldBool; rw [h]; cases b <;> rfl

theorem fieldAmount_of {f : List Byte} {o low v : Nat} (h : fieldNat f o 3 = v) (hl : low ≤ v) (hh : v ≤ Config.maxAmount) :
    fieldAmount f o low = some v := by simp [fieldAmount, h, hl, hh]

theorem fieldCode_of {f : List Byte} {o : Nat} {c : CardCode} (h : fieldNat f o 6 = c.toNat) : fieldCode f o = c := by
  simp [fieldCode, h]

theorem fieldPair_of {f : List Byte} {o : Nat} {c : BitVec 16} (h : fieldNat f o 2 = c.toNat) : fieldPair f o = c := by
  simp [fieldPair, h]

theorem fieldPort_of {f : List Byte} {o : Nat} {p : PortId} (h : fieldNat f o 1 = p.val) : fieldPort f o = some p := by
  have := p.isLt
  simp [fieldPort, h]

theorem fieldEntry_of {f : List Byte} {o : Nat} {p : EntryId} (h : fieldNat f o 1 = p.val) : fieldEntry f o = some p := by
  have := p.isLt
  simp [fieldEntry, h]

theorem fieldUnit_of {f : List Byte} {o : Nat} {p : UnitId} (h : fieldNat f o 1 = p.val) : fieldUnit f o = some p := by
  have := p.isLt
  simp only [fieldUnit, h]; rw [dif_pos this]

theorem fieldPattern_of {f : List Byte} {o : Nat} {p : BitVec 28} (h : fieldNat f o 4 = p.toNat) : fieldPattern f o = some p := by
  have := p.isLt
  simp [fieldPattern, h, this]

theorem fieldIn_of {f : List Byte} {o n low high v : Nat} (h : fieldNat f o n = v) (h1 : low ≤ v) (h2 : v ≤ high) : fieldIn f o n low high = some v := by
  simp [fieldIn, h, h1, h2]

theorem fieldTrial_of {f : List Byte} {o v : Nat} (h : fieldNat f o 3 = v) (h2 : v ≤ Config.trialCeiling) : fieldTrialValue f o = some v := by
  simp [fieldTrialValue, h, h2]

theorem fieldRole_of {f : List Byte} {o : Nat} {v : Role} (h : fieldNat f o 1 = v.code.toNat) : fieldRole f o = some v := by
  unfold fieldRole; rw [h]; cases v <;> rfl

theorem fieldMode_of {f : List Byte} {o : Nat} {v : Mode} (h : fieldNat f o 1 = v.code.toNat) : fieldMode f o = some v := by
  unfold fieldMode; rw [h]; cases v <;> rfl

theorem fieldRecovery_of {f : List Byte} {o : Nat} {v : Recovery} (h : fieldNat f o 1 = v.code.toNat) : fieldRecovery f o = some v := by
  unfold fieldRecovery; rw [h]; cases v <;> rfl

theorem fieldBase_of {f : List Byte} {o : Nat} {v : TimeBase} (h : fieldNat f o 1 = v.code.toNat) : fieldBase f o = some v := by
  unfold fieldBase; rw [h]; cases v <;> rfl

theorem fieldRange_of {f : List Byte} {a b : Nat} (h0 : fieldNat f 0 3 = a) (h3 : fieldNat f 3 3 = b) (h : slotRange a b = true) :
    fieldRange f = some (a, b) := by
  simp only [slotRange, Bool.and_eq_true, decide_eq_true_eq] at h
  simp [fieldRange, h0, h3, h]

theorem address_length (a : Address) : a.bytes.length = 7 := by cases a <;> simp [Address.bytes, natBytes_length]

theorem fieldNat_addr (a : Address) (off n : Nat) (rest : List Byte) (h : 7 ≤ off) :
    fieldNat (a.bytes ++ rest) off n = fieldNat rest (off - 7) n := by
  rw [fieldNat_append_left _ _ _ _ (by rw [address_length]; exact h), address_length]

theorem fieldAddress_of (a : Address) (rest : List Byte) (h : a.inRange = true) : fieldAddress (a.bytes ++ rest) = some a := by
  cases a with
  | code c =>
    have h0 : fieldNat ((Address.code c).bytes ++ rest) 0 1 = 0 := by simp [Address.bytes, fieldNat_head]
    have h1 : fieldNat ((Address.code c).bytes ++ rest) 1 6 = c.toNat := by
      simp only [Address.bytes, List.cons_append]
      rw [fieldNat_cons _ _ _ _ (le_refl _), fieldNat_here _ _ _ (code_lt c)]
    simp [fieldAddress, h0, fieldCode, h1]
  | slot n =>
    have hn : n < 131072 := by simp only [Address.inRange, decide_eq_true_eq] at h; exact h
    have h0 : fieldNat ((Address.slot n).bytes ++ rest) 0 1 = 1 := by simp [Address.bytes, fieldNat_head]
    have h1 : fieldNat ((Address.slot n).bytes ++ rest) 1 6 = n := by
      simp only [Address.bytes, List.cons_append]
      rw [fieldNat_cons _ _ _ _ (le_refl _), fieldNat_here _ _ _ (by omega)]
    simp [fieldAddress, h0, h1, Config.slots, hn]

theorem fieldAddress_of' (a : Address) (h : a.inRange = true) : fieldAddress a.bytes = some a := by
  have := fieldAddress_of a [] h; simpa using this

theorem fieldCriterion_of {f : List Byte} {o : Nat} (c : Criterion) (rest : List Byte) (h : c.inRange = true)
   (hf : f.drop o = c.bytes ++ rest) : fieldCriterion f o = some c := by
  have hs : ∀ k n, fieldNat f (o + k) n = fieldNat (c.bytes ++ rest) k n := by
    intro k n; simp [fieldNat, ← hf, List.drop_drop]
  have hs0 : ∀ n, fieldNat f o n = fieldNat (c.bytes ++ rest) 0 n := fun n => hs 0 n
  cases c with
  | any => simp [fieldCriterion, hs0, Criterion.bytes, fieldNat_head]
  | figure fl r op =>
    have h1 : fieldNat f o 1 = fl.code.toNat := by simp [hs0, Criterion.bytes, fieldNat_head]
    have h2 : fieldNat f (o+1) 1 = r.code.toNat := by
      rw [hs]; simp only [Criterion.bytes, List.cons_append]
      rw [fieldNat_cons _ _ _ _ (le_refl _), fieldNat_head]
    have hop : op < 256 ^ 4 := by
      cases fl <;> simp only [Criterion.inRange, decide_eq_true_eq] at h <;> (try simp only [Config.maxAmount, Config.maxTime] at h) <;> omega
    have h3 : fieldNat f (o+2) 4 = op := by
      rw [hs]; simp only [Criterion.bytes, List.cons_append]
      rw [fieldNat_cons _ _ _ _ (by omega), fieldNat_cons _ _ _ _ (by omega)]
      exact fieldNat_here 4 op rest hop
    have hr : relationOf r.code.toNat = some r := by cases r <;> rfl
    simp only [fieldCriterion, h1, h2, h3, hr]
    cases fl <;> simp [Criterion.inRange, CritField.code, critFieldOf] at h ⊢ <;> exact h

/-- A criterion that is read lies in range (R108, R178). -/
theorem fieldCriterion_inRange {f : List Byte} {o : Nat} {c : Criterion} (h : fieldCriterion f o = some c) :
    c.inRange = true := by
  unfold fieldCriterion at h
  split at h
  · obtain rfl := Option.some.inj h; rfl
  · split at h
    · rename_i fl hi r hf hr
      split at h
      · rename_i hle
        obtain rfl := Option.some.inj h
        unfold critFieldOf at hf
        split at hf <;> simp at hf <;> obtain ⟨rfl, rfl⟩ := hf <;> simpa [Criterion.inRange] using hle
      · cases h
    · cases h

/-- A card address that is read lies in range (R21, R178). -/
theorem fieldAddress_inRange {f : List Byte} {a : Address} (h : fieldAddress f = some a) : a.inRange = true := by
  unfold fieldAddress at h
  split at h
  · obtain rfl := Option.some.inj h; rfl
  · split at h
    · rename_i hl; obtain rfl := Option.some.inj h; simpa [Address.inRange] using hl
    · cases h
  · cases h

end Sys2Proof.Machine
end

