-- ==== Sys2Proof/Laws/Leave.lean ====
section
/-! SUPPORT. What a port's leaving TRIAL does to holds, lists and trial cards (R146), and the open indices of the pool. -/

namespace Sys2Proof.Machine

/-- The keys of the records that satisfy a test are those that read so. -/
theorem look_iff_mem {t : Table Hold} (h : Table.wf Hold.fresh t) (n : Nat) (f : Hold → Bool) (hf : f Hold.fresh = false) :
    n ∈ (t.filter fun e => f e.2).map Prod.fst ↔ f (Table.look Hold.fresh t n) = true := by
  constructor
  · intro hm
    rw [List.mem_map] at hm
    obtain ⟨⟨k, v⟩, hm, rfl⟩ := hm
    rw [List.mem_filter] at hm
    rw [Table.look_of_mem Hold.fresh t h.1 k v hm.1]; exact hm.2
  · intro hl
    by_cases hn : ∃ v, (n, v) ∈ t
    · obtain ⟨v, hv⟩ := hn
      rw [Table.look_of_mem Hold.fresh t h.1 n v hv] at hl
      exact List.mem_map.mpr ⟨(n, v), List.mem_filter.mpr ⟨hv, hl⟩, rfl⟩
    · rw [Table.look_of_not_mem Hold.fresh t n (by rintro ⟨k, v⟩ he rfl; exact hn ⟨v, he⟩), hf] at hl
      simp at hl

/-- The keys of some records of a table in canonical form rise. -/
theorem sorted_filter {t : Table Hold} (h : Table.wf Hold.fresh t) (f : Nat × Hold → Bool) :
    ((t.filter f).map Prod.fst).Pairwise (· < ·) := 
  h.1.sublist (List.filter_sublist.map _)

/-- A drop without a notice (R130). -/
theorem dropClose_none (s : State) : (s.dropClose none) = { s with accounts := (match s.accounts.close with
      | .opened => s.accounts
      | .closing _ _ _ => { s.accounts with
          current := s.accounts.current.add s.accounts.next, next := .zero, close := .opened }) } := by
  unfold State.dropClose
  split <;> simp_all [Accounts.merged]

theorem nodup_erase_eq_filter {l : List Nat} (h : l.Nodup) (i : Nat) : l.erase i = l.filter (· ≠ i) := by
  rw [h.erase_eq_filter]; congr 1; funext x; simp; rfl

/-- `w` is `s` with the TRIAL holds of a list freed, in the list's order (R146). -/
structure Freed (s w : State) (l : List Nat) : Prop where
  hold : ∀ i, w.hold i = if i ∈ l then { s.hold i with isOpen := false, generation := (s.hold i).generation + 1 } else s.hold i
  free : w.freeList = s.freeList ++ l
  expiry : w.expiry = s.expiry.filter (fun i => i ∉ l)
  cards : ∀ n : TrialId, w.card (.trial n) = { s.card (.trial n) with
    chain := (s.card (.trial n)).chain.filter (fun i => i ∉ l)
    held := (((s.card (.trial n)).chain.filter fun i => i ∉ l).map fun i => (s.hold i).amount).sum }
  rest : w = { s with holds := w.holds, freeList := w.freeList, expiry := w.expiry, trialCards := w.trialCards }

theorem filter_filter_append (l : List Nat) (m : List Nat) (i : Nat) : (l.filter (fun x => x ∉ m)).filter (· ≠ i) = l.filter (fun x => x ∉ m ++ [i]) := by
  rw [List.filter_filter]; congr 1; funext x; simp; rw [Bool.and_comm]

theorem freeHold_trial_rest {w : State} {i : Nat} {n : TrialId} (h : (w.hold i).card = .trial n) :
   w.freeHold i = { w with holds := (w.freeHold i).holds, freeList := (w.freeHold i).freeList, expiry := (w.freeHold i).expiry, trialCards := (w.freeHold i).trialCards } := by
  simp only [State.freeHold, h, State.countHold]; rfl

theorem freed_foldl {s : State} (hok : PoolOk s) (l : List Nat) : ∀ (w : State) (m : List Nat), Freed s w m → (m ++ l).Nodup →
    (∀ i ∈ l, (s.hold i).isOpen = true ∧ (s.hold i).card.isTrial = true) → Freed s (l.foldl State.freeHold w) (m ++ l) := by
  induction l with
  | nil => intro w m h _ _; simpa using h
  | cons i l ih =>
    intro w m h hnd hl
    rw [List.foldl_cons]
    have : m ++ i :: l = (m ++ [i]) ++ l := by simp
    rw [this] at hnd ⊢
    refine ih _ _ ?_ hnd (fun j hj => hl j (List.mem_cons_of_mem _ hj))
    have hi := hl i (List.mem_cons_self)
    have him : i ∉ m := by
      rw [List.nodup_append] at hnd
      have := hnd.1
      rw [List.nodup_append] at this
      exact fun h => this.2.2 i h i (by simp) rfl
    have hwi : w.hold i = s.hold i := by rw [h.hold, if_neg him]
    obtain ⟨n, hn⟩ : ∃ n, (s.hold i).card = .trial n := by
      rcases hc : (s.hold i).card with a | n
      · rw [hc] at hi; simp [CardRef.isTrial] at hi
      · exact ⟨n, rfl⟩
    have H := holdMoved_freeHold w i
    rw [hwi, hn] at H
    refine ⟨fun j => ?_, ?_, ?_, fun k => ?_, ?_⟩
    · by_cases hj : j = i
      · subst hj; rw [H.hold.written]; simp [hn]
      · rw [H.hold.others j hj, h.hold]; simp [hj]
    · rw [H.free, h.free]; simp
    · rw [H.expiry, h.expiry, nodup_erase_eq_filter (hok.expiryOnce.filter _), filter_filter_append]
    · have hc := h.cards k
      by_cases hk : k = n
      · subst hk
        rw [H.card.written, hc]
        have hmem : i ∈ (s.card (.trial k)).chain := (hok.chained _ _).mpr ⟨hi.1, hn⟩
        have hnod := hok.chainOnce (.trial k)
        have e1 : ((s.card (.trial k)).chain.filter (fun i => i ∉ m)).erase i = (s.card (.trial k)).chain.filter (fun x => x ∉ m ++ [i]) := by
          rw [nodup_erase_eq_filter (hnod.filter _), filter_filter_append]
        simp only [e1]
        congr 1
        rw [← e1]
        have hmf : i ∈ (s.card (.trial k)).chain.filter (fun i => i ∉ m) := by simp [hmem, him]
        have := List.sum_map_erase (fun i => (s.hold i).amount) hmf
        omega
      · rw [H.card.others _ (by simp [hk]), hc]
        have hnot : i ∉ (s.card (.trial k)).chain := by
          intro hm; have := ((hok.chained _ _).mp hm).2; rw [hn] at this; simp at this; exact hk this.symm
        have e1 : (s.card (.trial k)).chain.filter (fun x => x ∉ m ++ [i]) = (s.card (.trial k)).chain.filter (fun x => x ∉ m) := by
          apply List.filter_congr
          intro x hx
          have : x ≠ i := by rintro rfl; exact hnot hx
          simp [this]
        rw [e1]
    · have e := freeHold_trial_rest (w := w) (i := i) (by rw [hwi]; exact hn)
      generalize w.freeHold i = x at e
      have hr := h.rest
      refine e.trans ?_
      rw [hr]

theorem freed_leaveTrial {s : State} (hok : PoolOk s) (p : PortId) : Freed s (s.leaveTrial p) (s.trialHoldsOf p) := by
  have hmem : ∀ i, i ∈ s.trialHoldsOf p ↔ ((s.hold i).isOpen && (s.hold i).card.isTrial && (s.hold i).owner == p) = true := by
    intro i; exact look_iff_mem hok.tables.2 i (fun h => h.isOpen && h.card.isTrial && h.owner == p) rfl
  have hs : (s.trialHoldsOf p).Pairwise (· < ·) := hok.tables.2.1.sublist (List.filter_sublist.map _)
  have := freed_foldl hok (s.trialHoldsOf p) s [] ⟨fun i => by simp, by simp, by simp, fun n => by simp [← hok.held], rfl⟩ (by rw [List.nil_append]; exact hs.imp (fun h => ne_of_lt h)) (by
    intro i hi; have := (hmem i).mp hi; simp at this; exact this.1)
  rw [List.nil_append] at this; exact this

end Sys2Proof.Machine
end

