-- ==== Sys2Proof/Laws/PerInstr.lean ====
section
/-! SUPPORT. Statements about every command, one lemma for each constructor. -/

namespace Sys2Proof.Laws.WellFormedForm

/-- A command is well formed unless it is a BAD_LENGTH with a length the receiver takes, or a LINK_TIMEOUT with no gap. -/
def Statement (i : Instr) : Prop :=
  i.wf = false ↔ (∃ p b, i = .badLength p b ∧ 2 ≤ b.toNat ∧ b.toNat ≤ 60) ∨ ∃ p, i = .linkTimeout p 0

/-- The rows whose operand may be ill formed. -/
def operandChecked : Instr → Bool
  | .badLength _ _ | .linkTimeout _ _ => true
  | _ => false

/-- Every other row is well formed. -/
theorem Statement.of_plain {i : Instr} (h : i.wf = true) (hi : operandChecked i = false) : Statement i := by
  constructor
  · intro hf
    rw [h] at hf
    cases hf
  · rintro (⟨p, b, rfl, _⟩ | ⟨p, rfl⟩) <;> cases hi

theorem powerOn (rate1 rate0 : Bool) : Statement (.powerOn rate1 rate0) :=
  Statement.of_plain rfl rfl

theorem resetNAssert : Statement .resetNAssert :=
  Statement.of_plain rfl rfl

theorem resetNRelease (rate1 rate0 : Bool) : Statement (.resetNRelease rate1 rate0) :=
  Statement.of_plain rfl rfl

theorem tickSecond : Statement .tickSecond :=
  Statement.of_plain rfl rfl

theorem dividerSecond : Statement .dividerSecond :=
  Statement.of_plain rfl rfl

theorem windowExpiry : Statement .windowExpiry :=
  Statement.of_plain rfl rfl

theorem lapse : Statement .lapse :=
  Statement.of_plain rfl rfl

theorem searchStep : Statement .searchStep :=
  Statement.of_plain rfl rfl

theorem tallyStep : Statement .tallyStep :=
  Statement.of_plain rfl rfl

theorem purgeStep : Statement .purgeStep :=
  Statement.of_plain rfl rfl

theorem issueRunStep : Statement .issueRunStep :=
  Statement.of_plain rfl rfl

theorem grantCompletion : Statement .grantCompletion :=
  Statement.of_plain rfl rfl

theorem frameReceived (p : PortId) (b : Byte) : Statement (.frameReceived p b) :=
  Statement.of_plain rfl rfl

theorem idle (p : PortId) (b : Byte) : Statement (.idle p b) :=
  Statement.of_plain rfl rfl

theorem badLength (p : PortId) (b : Byte) : Statement (.badLength p b) := by
  simp only [Statement, Instr.wf, Instr.badLength.injEq, reduceCtorEq, exists_false, or_false, Bool.or_eq_false_iff,
    decide_eq_false_iff_not, not_lt]
  exact ⟨fun h => ⟨p, b, ⟨rfl, rfl⟩, h⟩, fun ⟨_, _, ⟨_, hb⟩, h⟩ => hb ▸ h⟩

theorem linkTimeout (p : PortId) (gap : Nat) : Statement (.linkTimeout p gap) := by
  simp [Statement, Instr.wf]

theorem idleRecovery (p : PortId) (b : Byte) : Statement (.idleRecovery p b) :=
  Statement.of_plain rfl rfl

theorem answerTransmitStart (p : PortId) : Statement (.answerTransmitStart p) :=
  Statement.of_plain rfl rfl

theorem answerSent (p : PortId) : Statement (.answerSent p) :=
  Statement.of_plain rfl rfl

theorem probe : Statement .probe :=
  Statement.of_plain rfl rfl

theorem reserve : Statement .reserve :=
  Statement.of_plain rfl rfl

theorem renew : Statement .renew :=
  Statement.of_plain rfl rfl

theorem capture : Statement .capture :=
  Statement.of_plain rfl rfl

theorem release : Statement .release :=
  Statement.of_plain rfl rfl

theorem redeem : Statement .redeem :=
  Statement.of_plain rfl rfl

theorem load : Statement .load :=
  Statement.of_plain rfl rfl

theorem collect (p : PortId) : Statement (.collect p) :=
  Statement.of_plain rfl rfl

theorem status (p : PortId) : Statement (.status p) :=
  Statement.of_plain rfl rfl

theorem portStatus (p : PortId) : Statement (.portStatus p) :=
  Statement.of_plain rfl rfl

theorem ident (p : PortId) : Statement (.ident p) :=
  Statement.of_plain rfl rfl

theorem setSeries : Statement .setSeries :=
  Statement.of_plain rfl rfl

theorem readSeries : Statement .readSeries :=
  Statement.of_plain rfl rfl

theorem issue : Statement .issue :=
  Statement.of_plain rfl rfl

theorem block : Statement .block :=
  Statement.of_plain rfl rfl

theorem unblock : Statement .unblock :=
  Statement.of_plain rfl rfl

theorem retire : Statement .retire :=
  Statement.of_plain rfl rfl

theorem editCard : Statement .editCard :=
  Statement.of_plain rfl rfl

theorem readCard : Statement .readCard :=
  Statement.of_plain rfl rfl

theorem readHold : Statement .readHold :=
  Statement.of_plain rfl rfl

theorem setTime : Statement .setTime :=
  Statement.of_plain rfl rfl

theorem search : Statement .search :=
  Statement.of_plain rfl rfl

theorem tally : Statement .tally :=
  Statement.of_plain rfl rfl

theorem purge : Statement .purge :=
  Statement.of_plain rfl rfl

theorem issueRun : Statement .issueRun :=
  Statement.of_plain rfl rfl

theorem cancelSweep : Statement .cancelSweep :=
  Statement.of_plain rfl rfl

theorem closeDay : Statement .closeDay :=
  Statement.of_plain rfl rfl

theorem confirmClose : Statement .confirmClose :=
  Statement.of_plain rfl rfl

theorem dayReport : Statement .dayReport :=
  Statement.of_plain rfl rfl

theorem accounts : Statement .accounts :=
  Statement.of_plain rfl rfl

theorem trialSet : Statement .trialSet :=
  Statement.of_plain rfl rfl

theorem setPort : Statement .setPort :=
  Statement.of_plain rfl rfl

theorem setTiming : Statement .setTiming :=
  Statement.of_plain rfl rfl

theorem resetPort : Statement .resetPort :=
  Statement.of_plain rfl rfl

theorem restorePort : Statement .restorePort :=
  Statement.of_plain rfl rfl

theorem byteReceived (p : PortId) (b : Byte) : Statement (.byteReceived p b) :=
  Statement.of_plain rfl rfl

end Sys2Proof.Laws.WellFormedForm
end

