-- ==== Sys2Proof/Laws/Ports.lean ====
section
/-! SUPPORT. Full queues, counts, health notices, uses and drifts, each operation as one write. -/

namespace Sys2Proof.Machine

/-- A new error count, as one write of the port (R165, R170). -/
theorem State.setCount_eq (s : State) (p : PortId) (count : Nat) (cause : HealthCause) :
    s.setCount p count cause = s.modifyPort p fun port =>
      { port with
        errorCount := count, health := healthOfCount count
        notices := if port.health = healthOfCount count then port.notices
            else pushNotice (.portState p port.health (healthOfCount count) count cause) port.notices } := by
  unfold State.setCount
  dsimp only
  split
  · rename_i h
    rw [State.modifyPort_const]
    conv_rhs => rw [State.modifyPort_const]
    simp only [h, if_true]
  · rename_i h
    rw [State.notify, State.modifyPort_modifyPort, State.modifyPort_const]
    conv_rhs => rw [State.modifyPort_const]
    simp only [h, if_false, Function.comp]

theorem healthOfCount_eq (count : Nat) :
    healthOfCount count = if count ≤ 95 then .active else if count ≤ 127 then .warned else .muted := by
  unfold healthOfCount; simp only [Nat.lt_succ_iff]

theorem foldl_notify_rest (l : List PortId) (n : Notice) (s : State) :
    l.foldl (fun t q => t.notify q n) s = { s with ports := (l.foldl (fun t q => t.notify q n) s).ports } := by
  induction l generalizing s with
  | nil => rfl
  | cons a l ih => rw [List.foldl_cons, ih]; rfl

theorem port_foldl_notify (l : List PortId) (hl : l.Nodup) (n : Notice) (s : State) (q : PortId) :
    (l.foldl (fun t q => t.notify q n) s).port q =
      if q ∈ l then { s.port q with notices := pushNotice n (s.port q).notices } else s.port q := by
  induction l generalizing s with
  | nil => simp
  | cons a l ih =>
    rw [List.nodup_cons] at hl
    rw [List.foldl_cons, ih hl.2, State.port_notify]
    by_cases h : a = q
    · subst h; simp [hl.1]
    · have : q ≠ a := Ne.symm h
      simp [h, this]

/-- The notices of an entry to OFF change notice queues only (R166, R170). -/
theorem State.notifyOff_rest (s : State) (p : PortId) (n : Notice) :
    s.notifyOff p n = { s with ports := (s.notifyOff p n).ports } := by
  unfold State.notifyOff; rw [foldl_notify_rest]; rfl

/-- The notices of an entry to OFF reach the port itself and every OFFICE port (R166, R170). -/
theorem State.port_notifyOff (s : State) (p q : PortId) (n : Notice) :
    (s.notifyOff p n).port q = if q = p ∨ (s.port q).role = .office then
      { s.port q with notices := pushNotice n (s.port q).notices } else s.port q := by
  unfold State.notifyOff
  have hnd : (allPorts.filter fun q => q ≠ p && (s.port q).role == .office).Nodup := List.Nodup.filter _ (by decide)
  rw [port_foldl_notify _ hnd, State.port_notify]
  have : q ∈ allPorts := by revert q; decide
  simp only [List.mem_filter, this, true_and]
  by_cases h : q = p
  · subst h; simp
  · have h' : ¬ p = q := fun e => h e.symm
    simp [h, h']

/-- No answer place is free when all eight are taken (R154). -/
theorem State.freePlaces_eq_zero (s : State) (p : PortId) : s.freePlaces p = 0 ↔ 8 ≤ s.takenPlaces p := by
  have h : s.usedPlaces p = s.takenPlaces p := by
    unfold State.usedPlaces State.takenPlaces State.inFlightAt
    cases s.inFlight <;> simp
  simp only [State.freePlaces, Config.answerPlaces, h]
  omega

/-- When a request queue is full (R154). -/
theorem State.queueFull_iff (s : State) (p : PortId) :
    s.queueFull p = true ↔ 4 ≤ (s.port p).requests.length ∨ 8 ≤ s.takenPlaces p := by
  rw [State.queueFull, Bool.or_eq_true, decide_eq_true_iff, decide_eq_true_iff, State.freePlaces_eq_zero]; rfl

/-- Counting a use, as one write of the card (R18). -/
theorem Card.countUse_eq (c : Card) (day : Nat) : c.countUse day = { c with useDay := day, uses := usesAfter c day } := by
  unfold Card.countUse usesAfter
  split
  · rename_i h; simp [h]
  · simp

theorem State.rulesOf_real {s : State} {slot : Nat} {e : EntryId} (h : s.governing slot = some e) :
    s.rulesOf (.real slot) = (s.entry e).fields.rules := by
  simp [State.rulesOf, h]

/-- A change of a card leaves a unit that runs no TALLY (R113). -/
theorem afterChange_of_not_tally (w : Sweep) (ref : CardRef) (a b : Card) (h : ∀ x y, w.params ≠ .tally x y) :
    afterChange w ref a b = w := by
  cases ref with
  | trial _ => rfl
  | real slot =>
    have : w.hasTallied slot = false := by
      unfold Sweep.hasTallied
      split
      · rename_i x y hp; exact absurd hp (h x y)
      · rfl
    simp [afterChange, Sweep.drifted, this]

end Sys2Proof.Machine
end

