-- ==== Sys2Proof/Laws/Ring.lean ====
section
/-! SUPPORT. The ring and the priority of entries as least elements, and the row of the next grant. -/

namespace Sys2Proof.Machine

/-- The first element of a list that satisfies a test, when a key rises along the list: the one of least key. -/
theorem find_eq_some_iff_least {α : Type} (f : α → Bool) (key : α → Nat) (l : List α) (hl : (l.map key).Pairwise (· < ·))
    (c : α) : l.find? f = some c ↔ c ∈ l ∧ f c = true ∧ ∀ d ∈ l, f d = true → key c ≤ key d := by
  induction l with
  | nil => simp
  | cons a rest ih =>
    simp only [List.map_cons, List.pairwise_cons, List.mem_map, forall_exists_index, and_imp,
      forall_apply_eq_imp_iff₂] at hl
    rw [List.find?_cons]
    rcases ha : f a
    · simp only [ih hl.2, List.forall_mem_cons, ha]; simp only [List.mem_cons]
      constructor
      · rintro ⟨h1, h2, h3⟩; exact ⟨.inr h1, h2, by simp, h3⟩
      · rintro ⟨h1, h2, h3, h4⟩
        refine ⟨h1.resolve_left ?_, h2, h4⟩
        rintro rfl; simp [ha] at h2
    · simp only [Option.some.injEq, List.forall_mem_cons]; simp only [List.mem_cons]
      constructor
      · rintro rfl; exact ⟨.inl rfl, ha, fun _ => le_rfl, fun d hd _ => (hl.1 d hd).le⟩
      · rintro ⟨h1, h2, h3, h4⟩
        rcases h1 with rfl | h1
        · rfl
        · exact absurd (h3 ha) (not_le.mpr (hl.1 c h1))

/-- The first claimant round the ring is the one with the fewest positions before it (R30). -/
theorem find_ring (f : Position → Bool) (last c : Position) :
    (ringFrom last).find? f = some c ↔ f c = true ∧ ∀ d, f d = true → (c - last - 1).val ≤ (d - last - 1).val := by
  have hk : ∀ last : Position, ((ringFrom last).map fun d => (d - last - 1).val).Pairwise (· < ·) := by decide
  have hm : ∀ last c : Position, c ∈ ringFrom last := by decide
  rw [find_eq_some_iff_least f (fun d => (d - last - 1).val) _ (hk last)]
  simp [hm]

theorem portLocal_iff (r : Request) :
    r.portLocal = true ↔ r.kind ∈ [Kind.collect, .status, .portStatus, .ident] := by
  cases r <;> simp [Request.portLocal, Request.kind]

theorem claimantAt_position (c : Claimant) : claimantAt c.position = c := by
  rcases c with p | _ | u
  · fin_cases p <;> rfl
  · rfl
  · fin_cases u <;> rfl

theorem position_claimantAt (i : Position) : (claimantAt i).position = i := by
  fin_cases i <;> rfl

/-- The row of the next grant, when it is a port's request. -/
theorem nextRequest_nextRow {s : State} {p : PortId} {q : QueuedRequest} (h : s.nextRequest = some (p, q)) :
    s.nextRow = q.request.row := by
  unfold State.nextRequest at h
  unfold State.nextRow
  rcases hg : s.nextGrant with _ | (p' | _ | u) <;> simp [hg] at h ⊢
  obtain ⟨h1, rfl⟩ := h
  simp [h1]

/-- A grant row that is not the next grant's changes nothing (R30, R33). -/
theorem State.runGrant_of_other_row (s : State) (c : Instr) (select : PortId → Request → Option (State → Done))
    (hc : s.nextRow ≠ some c) (hs : ∀ p r, r.row ≠ some c → select p r = none) : s.runGrant select = s := by
  rcases h : s.nextRequest with _ | ⟨p, q⟩
  · exact State.runGrant_of_no_request h _
  · have := nextRequest_nextRow h
    exact State.runGrant_of_not_selected h (hs p _ (by rw [← this]; exact hc))

/-- The row of the next grant, when it is a step of a sweep. -/
theorem nextSweep_nextRow {s : State} {u : UnitId} (h : s.nextSweep = some u) :
    s.nextRow = some (s.sweep u).params.row := by
  unfold State.nextSweep at h
  unfold State.nextRow
  rcases hg : s.nextGrant with _ | (p' | _ | v) <;> simp [hg] at h ⊢
  subst h; rfl

/-- The start of a grant leaves the roles (R30 to R32). -/
theorem State.startGrant_role (s : State) (p q : PortId) (r : Request) :
    ((s.startGrant p r).port q).role = (s.port q).role := by
  have key : ∀ (t : State) (a b : PortId) (f : Port → Port), (f (t.port a)).role = (t.port a).role →
      ((t.modifyPort a f).port b).role = (t.port b).role := by
    intro t a b f h
    rw [State.port_modifyPort]
    split
    · rename_i hab; subst hab; exact h
    · rfl
  have hpop : ((({ s with lastGranted := (Claimant.port p).position } : State).popRequest p).port q).role =
      (s.port q).role := key _ _ _ _ rfl
  unfold State.startGrant
  dsimp only
  split
  · exact hpop
  · unfold State.dropCloseOf State.dropClose
    split
    · split
      · exact hpop
      · exact (key _ _ _ _ rfl).trans hpop
    · exact hpop

/-- The entry a search through the table finds: the lowest-numbered one that satisfies the test (1.2, R3). -/
theorem find_entries (f : EntryId → Bool) (e : EntryId) :
    allEntries.find? f = some e ↔ f e = true ∧ ∀ o, o < e → ¬ f o = true := by
  have hk : ∀ l : List EntryId, (l.map fun d => d.val).Pairwise (· < ·) → 
     (l.find? f = some e ↔ e ∈ l ∧ f e = true ∧ ∀ o ∈ l, o < e → ¬ f o = true) := by
    intro l hl
    induction l with
    | nil => simp
    | cons a rest ih =>
      simp only [List.map_cons, List.pairwise_cons, List.mem_map, forall_exists_index, and_imp,
        forall_apply_eq_imp_iff₂] at hl
      rw [List.find?_cons]
      rcases ha : f a
      · simp only [ih hl.2, List.forall_mem_cons, ha]; simp only [List.mem_cons]
        constructor
        · rintro ⟨h1, h2, h3⟩; exact ⟨.inr h1, h2, by simp, h3⟩
        · rintro ⟨h1, h2, h3, h4⟩
          refine ⟨h1.resolve_left ?_, h2, h4⟩
          rintro rfl; simp [ha] at h2
      · simp only [Option.some.injEq, List.forall_mem_cons]; simp only [List.mem_cons]
        constructor
        · rintro rfl; exact ⟨.inl rfl, ha, fun h => absurd h (lt_irrefl _), fun d hd h => absurd (hl.1 d hd) (not_lt.mpr (le_of_lt h))⟩
        · rintro ⟨h1, h2, h3, h4⟩
          rcases h1 with rfl | h1
          · rfl
          · exact absurd ha (h3 (hl.1 e h1))
  rw [hk allEntries (by decide)]
  have hm : ∀ o, o ∈ allEntries := by decide
  simp [hm]

theorem serialField_eq (c : CardCode) : serialField c = c.toNat % 2 ^ 20 := by
  simp [serialField, BitVec.extractLsb'_toNat]

end Sys2Proof.Machine
end

