-- ==== Sys2Proof/Laws/Step.lean ====
section
/-! SUPPORT. What a step can do, said once: a property of states that the plain writes of a step keep (ports, accounts
other than the lifetime counters, clock, grant in progress, board) and that each operation on cards, holds, series, sweeps
and trial cards keeps, is kept by every command and by every step. -/

namespace Sys2Proof.Machine

/-- A property kept by the start of a grant, an answer formed, what follows, and the selected work, is kept by a grant
row. -/
theorem runGrant_keeps {P : State → Prop} (hstart : ∀ s p r, P s → P (s.startGrant p r))
    (hans : ∀ s f, P s → P { s with inFlight := f }) (hfin : ∀ s t, P s → P (State.finish s t))
    {select : PortId → Request → Option (State → Done)}
    {s : State} {R : Request → Prop} (hr : ∀ p, ∀ q ∈ (s.port p).requests, R q.request)
    (hwork : ∀ p r work s, select p r = some work → R r → P s → P (work s).state) (h : P s) :
    P (s.runGrant select) := by
  unfold State.runGrant
  split
  · exact h
  · rename_i p q hq
    have hqr : R q.request := by
      unfold State.nextRequest at hq
      split at hq
      · simp only [Option.map_eq_some_iff, Prod.mk.injEq] at hq
        obtain ⟨a, ha, rfl, rfl⟩ := hq
        exact hr _ _ (List.mem_of_head? ha)
      · simp at hq
    split
    · exact h
    · unfold State.grantRequest
      apply hfin
      apply hans
      split
      · exact hwork _ _ _ _ (by assumption) hqr (hstart _ _ _ h)
      · exact hstart _ _ _ h

/-- A port-local answer keeps what its writes of the port and its work keep. -/
theorem answerLocal_keeps {P : State → Prop}
    (hports : ∀ s p f, (∀ x : Port, (f x).mode = x.mode) → P s → P (State.modifyPort s p f))
    {p : PortId} {select : Request → Option (State → State × Answer)}
    (hwork : ∀ r work s, select r = some work → P s → P (work s).1) {s : State} (h : P s) :
    P (s.answerLocal p select) := by
  unfold State.answerLocal
  split
  · exact h
  · split
    · exact h
    · split
      · exact h
      · dsimp only
        refine hports _ _ _ (fun _ => rfl) ?_
        have hp : P (s.popRequest p) := hports _ _ _ (fun _ => rfl) h
        split
        · exact hwork _ _ _ (by assumption) hp
        · exact hp

/-- The plain writes of a step keep `P`: a port's record but for its mode, the accounts but for the lifetime counters, the
grant in progress, the last-granted position, the clock and the queue of commands. -/
structure PlainKept (P : State → Prop) : Prop where
  port : ∀ s p f, (∀ x : Port, (f x).mode = x.mode) → P s → P (State.modifyPort s p f)
  accounts : ∀ s x, x.lifetime = s.accounts.lifetime → P s → P { s with accounts := x }
  inFlight : ∀ s x, P s → P { s with inFlight := x }
  lastGranted : ∀ s x, P s → P { s with lastGranted := x }
  clock : ∀ s x, P s → P { s with clock := x }
  pending : ∀ s x, P s → P { s with pending := x }

namespace PlainKept

variable {P : State → Prop} (I : PlainKept P)
include I


theorem notify (s p n) (h : P s) : P (State.notify s p n) := I.port _ _ _ (fun _ => rfl) h

theorem dropClose (s c) (h : P s) : P (State.dropClose s c) := by
  unfold State.dropClose; split
  · exact h
  · split
    · exact I.accounts _ _ rfl h
    · exact I.notify _ _ _ (I.accounts _ _ rfl h)

theorem dropCloseOf (s p c) (h : P s) : P (State.dropCloseOf s p c) := by
  unfold State.dropCloseOf; split
  · exact I.dropClose _ _ h
  · exact h

theorem showDrop (s t) (h : P t) : P (State.showDrop s t) := by
  unfold State.showDrop; split
  · exact I.inFlight _ _ h
  · exact h

theorem windowCheck (s) (h : P s) : P (State.windowCheck s) := by
  unfold State.windowCheck; split
  · exact h
  · split
    · exact I.showDrop _ _ (I.dropClose _ _ h)
    · exact h

theorem discard (s p) (h : P s) : P (State.discardInFlight s p) := I.inFlight _ _ h

theorem setCount (s p c k) (h : P s) : P (State.setCount s p c k) := by
  unfold State.setCount; dsimp only; split
  · exact I.port _ _ _ (fun _ => rfl) h
  · exact I.notify _ _ _ (I.port _ _ _ (fun _ => rfl) h)

theorem notifyOff (s p n) (h : P s) : P (State.notifyOff s p n) := by
  unfold State.notifyOff
  generalize (allPorts.filter _) = l
  have : ∀ t, P t → P (l.foldl (fun t q => t.notify q n) t) := by
    induction l with
    | nil => intro t h; exact h
    | cons a l ih => intro t h; exact ih _ (I.notify _ _ _ h)
  exact this _ (I.notify _ _ _ h)

theorem enterOff (s p) (h : P s) : P (State.enterOff s p) :=
  I.showDrop _ _ (I.dropCloseOf _ _ _ (I.notifyOff _ _ _ (I.discard _ _ (I.port _ _ _ (fun _ => rfl) h))))

theorem raiseCount (s p k) (h : P s) : P (State.raiseCount s p k) := by
  unfold State.raiseCount; split
  · exact h
  · split
    · exact I.enterOff _ _ h
    · exact I.setCount _ _ _ _ h

theorem linkError (s p) (h : P s) : P (State.linkError s p) := by
  unfold State.linkError; split
  · exact I.port _ _ _ (fun _ => rfl) h
  · exact I.raiseCount _ _ _ h

theorem makeActive (s p c) (h : P s) : P (State.makeActive s p c) := by
  unfold State.makeActive; dsimp only; split
  · exact I.port _ _ _ (fun _ => rfl) h
  · exact I.notify _ _ _ (I.port _ _ _ (fun _ => rfl) h)

theorem portReset (s p) (h : P s) : P (State.portReset s p) :=
  I.dropCloseOf _ _ _ (I.discard _ _ (I.port _ _ _ (fun _ => rfl) h))

theorem timeOut (s p) (h : P s) : P (State.timeOut s p) := by
  unfold State.timeOut; dsimp only; split
  · exact I.linkError _ _ (I.port _ _ _ (fun _ => rfl) h)
  · exact I.showDrop _ _ (I.portReset _ _ (I.linkError _ _ (I.port _ _ _ (fun _ => rfl) h)))

theorem gapCheck (s p) (h : P s) : P (State.gapCheck s p) := by
  unfold State.gapCheck; split
  · exact I.timeOut _ _ h
  · exact h

theorem finish (s t) (h : P s) : P (State.finish s t) := by
  cases t
  · exact h
  · exact I.windowCheck _ h
  · exact I.gapCheck _ _ h
  · exact I.portReset _ _ h

theorem startGrant (s p r) (h : P s) : P (State.startGrant s p r) := by
  unfold State.startGrant; dsimp only; split
  · exact I.port _ _ _ (fun _ => rfl) (I.lastGranted _ _ h)
  · exact I.dropCloseOf _ _ _ (I.port _ _ _ (fun _ => rfl) (I.lastGranted _ _ h))

theorem runGrant {select : PortId → Request → Option (State → Done)} {s : State} {R : Request → Prop}
    (hr : ∀ p, ∀ q ∈ (s.port p).requests, R q.request)
    (hwork : ∀ p r work s, select p r = some work → R r → P s → P (work s).state) (h : P s) :
    P (s.runGrant select) :=
  runGrant_keeps I.startGrant I.inFlight I.finish hr hwork h

theorem writeTiming (s a b c d e f) (h : P s) : P (State.writeTiming s a b c d e f) := by
  have h1 := I.port s a (fun port => { port with timeout := b, recovery := c }) (fun _ => rfl) h
  have h2 := I.accounts (s.modifyPort a fun port => { port with timeout := b, recovery := c })
    { s.accounts with window := d } rfl h1
  exact I.clock _ { s.clock with base := e, divisor := f, divider := 0 } h2

theorem receiveByte (s p b) (h : P s) : P (State.receiveByte s p b) := by
  unfold State.receiveByte
  split
  · exact h
  · split
    · split
      · exact I.port _ _ _ (fun _ => rfl) h
      · exact h
    · split
      · exact I.port _ _ _ (fun _ => rfl) h
      · exact I.linkError _ _ (I.port _ _ _ (fun _ => rfl) h)
    · split <;> exact I.port _ _ _ (fun _ => rfl) h
    · exact I.port _ _ _ (fun _ => rfl) h
    · unfold State.frameComplete
      have h2 : P (s.receiverTo p .hunt) := I.port _ _ _ (fun _ => rfl) h
      split
      · split
        · unfold State.frameInOff
          split
          · split
            · exact I.makeActive _ _ _ h2
            · exact I.port _ _ _ (fun _ => rfl) h2
          · exact I.port _ _ _ (fun _ => rfl) h2
        · unfold State.frameJudged
          split
          · exact I.setCount _ _ _ _ h2
          · unfold State.refuseAtArrival; split
            · exact I.raiseCount _ _ _ h2
            · exact I.raiseCount _ _ _ (I.port _ _ _ (fun _ => rfl) h2)
          · unfold State.intake; split
            · split
              · exact h2
              · exact I.port _ _ _ (fun _ => rfl) h2
            · exact I.setCount _ _ _ _ (I.port _ _ _ (fun _ => rfl) h2)
      · exact I.linkError _ _ h2

end PlainKept


/-- The plain writes keep `P`, and so does each operation on cards, holds, series, sweeps and trial cards, for requests
that satisfy `R`. -/
structure OpsKept (P : State → Prop) (R : Request → Prop) : Prop extends PlainKept P where
  lapse : ∀ s i rest, P s → s.expiry = i :: rest → P (State.freeHold s i)
  note : ∀ s ref p till k, P s → P (State.noteActivity s ref p till k)
  endSweep : ∀ s u r o, P s → P (State.endSweep s u r o)
  searchStep : ∀ s u a b c d e f, P s → (s.sweep u).params = .search a b c d e f →
    P (State.searchStep s u b c d e f)
  tallyStep : ∀ s u a b, P s → (s.sweep u).params = .tally a b → P (State.tallyStep s u b)
  purgeStep : ∀ s u o t, P s → (s.sweep u).params = .purge o t → P (State.purgeStep s u o t)
  issueRunStep : ∀ s u a b c d, P s → (s.sweep u).params = .issueRun a b c d → P (State.issueRunStep s u b c d)
  reserve : ∀ p code till asked pf lf s, P s → P (reserveCard p code till asked pf lf s).state
  renew : ∀ p tag s, P s → P (renewTag p tag s).state
  capture : ∀ p tag final till s, P s → P (captureTag p tag final till s).state
  release : ∀ p tag s, P s → P (releaseTag p tag s).state
  redeem : ∀ p code till asked pf s, P s → P (redeemCode p code till asked pf s).state
  load : ∀ p code till asked s, P s → P (loadCode p code till asked s).state
  setSeries : ∀ e f s, R (.setSeries e f) → P s → P (writeSeries e f s).state
  issue : ∀ a v s, R (.issue a v) → P s → P (issueCard a v s).state
  block : ∀ a s, P s → P (moveState a .active .blocked s).state
  unblock : ∀ a s, P s → P (moveState a .blocked .active s).state
  retire : ∀ a s, P s → P (retireCard a s).state
  edit : ∀ a b c d e s, R (.editCard a b c d e) → P s → P (editCardFields a b c d e s).state
  search : ∀ p a b c d e f s, R (.search a b c d e f) → P s → P (startSweep p (.search a b c d e f) s).state
  tally : ∀ p a b s, R (.tally a b) → P s → P (startSweep p (.tally a b) s).state
  purge : ∀ p a b s, P s → P (startSweep p (.purge a b) s).state
  issueRun : ∀ p a b c d s, R (.issueRun a b c d) → P s → P (startIssueRun p a b c d s).state
  trialSet : ∀ w v s, R (.trialSet w v) → P s → P (setTrial w v s).state
  setPort : ∀ t r m s, P s → P (setPortMode t r m s).state

/-- Power-on and the two edges of RESET_N keep `P`. -/
structure BoardKept (P : State → Prop) : Prop where
  powerOn : ∀ l q, P { State.reset with lineRate := l, pending := q }
  resetLine : ∀ s, P s → P (State.resetLine s)
  release : ∀ s l, P s → P { s with
    resetLow := false, lineRate := l
    ports := mapVec (fun port => { port with receiver := .hunt, gap := 0 }) s.ports }

/-- Power-on and the two edges of RESET_N. -/
def boardRows : List Instr :=
  [.resetNAssert] ++ [false, true].flatMap fun a => [false, true].flatMap fun b => [.powerOn a b, .resetNRelease a b]

/-- What every operation keeps, every command but power-on and the edges of RESET_N keeps. -/
theorem exec_keeps_inside {P : State → Prop} {R : Request → Prop} (K : OpsKept P R) (c : Instr) (hc : c ∉ boardRows)
    (s t : State) (hr : ∀ p, ∀ q ∈ (s.port p).requests, R q.request) (h : P s) (he : exec c s = .next t) : P t := by
  have I := K.toPlainKept
  cases c
  all_goals simp only [exec] at he
  case powerOn a b => exact absurd (by cases a <;> cases b <;> decide) hc
  case resetNAssert => exact absurd (by decide) hc
  case resetNRelease a b => exact absurd (by cases a <;> cases b <;> decide) hc
  case tickSecond =>
    simp only [execTickSecond, Host.Outcome.next.injEq] at he; subst he; split
    · exact I.windowCheck _ (I.clock _ _ h)
    · exact h
  case dividerSecond =>
    simp only [execDividerSecond, Host.Outcome.next.injEq] at he; subst he; split
    · exact h
    · exact I.windowCheck _ (I.clock _ _ (I.clock _ _ h))
  case windowExpiry => simp only [execWindowExpiry, Host.Outcome.next.injEq] at he; subst he; exact I.windowCheck _ h
  case lapse =>
    simp only [execLapse, Host.Outcome.next.injEq] at he; subst he; split
    · split
      · exact h
      · rename_i hx; exact I.notify _ _ _ (K.note _ _ _ _ _ (K.lapse _ _ _ (I.lastGranted _ _ h) hx))
    · exact h
  case searchStep =>
    simp only [execSearchStep, Host.Outcome.next.injEq] at he; subst he; split
    · exact h
    · split
      · rename_i hx; exact K.searchStep _ _ _ _ _ _ _ _ (I.lastGranted _ _ h) hx
      · exact h
  case tallyStep =>
    simp only [execTallyStep, Host.Outcome.next.injEq] at he; subst he; split
    · exact h
    · split
      · rename_i hx; exact K.tallyStep _ _ _ _ (I.lastGranted _ _ h) hx
      · exact h
  case purgeStep =>
    simp only [execPurgeStep, Host.Outcome.next.injEq] at he; subst he; split
    · exact h
    · split
      · rename_i hx; exact K.purgeStep _ _ _ _ (I.lastGranted _ _ h) hx
      · exact h
  case issueRunStep =>
    simp only [execIssueRunStep, Host.Outcome.next.injEq] at he; subst he; split
    · exact h
    · split
      · rename_i hx; exact K.issueRunStep _ _ _ _ _ _ (I.lastGranted _ _ h) hx
      · exact h
  case grantCompletion =>
    simp only [execGrantCompletion, Host.Outcome.next.injEq] at he; subst he; split
    · exact h
    · split
      · exact I.inFlight _ _ h
      · exact I.port _ _ _ (fun _ => rfl) (I.inFlight _ _ h)
  case frameReceived p b => injection he with he; subst he; exact I.receiveByte _ _ _ h
  case idle p b => injection he with he; subst he; exact I.receiveByte _ _ _ h
  case badLength p b => injection he with he; subst he; exact I.receiveByte _ _ _ h
  case idleRecovery p b => injection he with he; subst he; exact I.receiveByte _ _ _ h
  case byteReceived p b => injection he with he; subst he; exact I.receiveByte _ _ _ h
  case linkTimeout p g =>
    simp only [execLinkTimeout, Host.Outcome.next.injEq] at he; subst he; split
    · exact h
    · exact I.gapCheck _ _ (I.port _ _ _ (fun _ => rfl) h)
  case answerTransmitStart p =>
    simp only [execAnswerTransmitStart, Host.Outcome.next.injEq] at he; subst he; split
    · exact I.port _ _ _ (fun _ => rfl) h
    · exact h
  case answerSent p => injection he with he; subst he; exact I.port _ _ _ (fun _ => rfl) h
  case collect p =>
    injection he with he; subst he
    refine answerLocal_keeps I.port ?_ h
    intro r work s hs hP
    split at hs <;> simp at hs
    subst hs; unfold collectNotice; split
    · exact hP
    · rename_i e rest he; exact I.port s p (fun port => { port with notices := rest }) (fun _ => rfl) hP
  case status p =>
    injection he with he; subst he
    refine answerLocal_keeps I.port ?_ h
    intro r work s hs hP
    split at hs <;> simp at hs
    subst hs; exact hP
  case portStatus p =>
    injection he with he; subst he
    refine answerLocal_keeps I.port ?_ h
    intro r work s hs hP
    split at hs <;> simp at hs
    subst hs; exact hP
  case ident p =>
    injection he with he; subst he
    refine answerLocal_keeps I.port ?_ h
    intro r work s hs hP
    split at hs <;> simp at hs
    subst hs; exact hP
  all_goals
    injection he with he; subst he
    refine I.runGrant hr ?_ h
    intro p r work s hs hin hP
    split at hs <;> simp only [Option.some.injEq, reduceCtorEq] at hs
    subst hs
  · unfold probeCard; split <;> exact hP
  · exact K.reserve _ _ _ _ _ _ _ hP
  · exact K.renew _ _ _ hP
  · exact K.capture _ _ _ _ _ hP
  · exact K.release _ _ _ hP
  · exact K.redeem _ _ _ _ _ _ hP
  · exact K.load _ _ _ _ _ hP
  · exact K.setSeries _ _ _ hin hP
  · exact hP
  · exact K.issue _ _ _ hin hP
  · exact K.block _ _ hP
  · exact K.unblock _ _ hP
  · exact K.retire _ _ hP
  · exact K.edit _ _ _ _ _ _ hin hP
  · unfold readCardRecord; split <;> exact hP
  · exact hP
  · exact I.clock _ _ hP
  · exact K.search _ _ _ _ _ _ _ _ hin hP
  · exact K.tally _ _ _ _ hin hP
  · exact K.purge _ _ _ _ hP
  · exact K.issueRun _ _ _ _ _ _ hin hP
  · unfold cancelUnit; split
    · exact K.endSweep _ _ _ _ hP
    · exact hP
  · unfold openClose; split
    · exact hP
    · exact I.accounts _ _ rfl hP
  · unfold confirmPending; split
    · exact hP
    · split
      · exact I.accounts _ _ rfl hP
      · exact hP
  · unfold reportDay; split <;> exact hP
  · exact hP
  · exact K.trialSet _ _ _ hin hP
  · exact K.setPort _ _ _ _ hP
  · unfold setLineTiming; split
    · exact hP
    · exact I.writeTiming _ _ _ _ _ _ _ hP
  · exact hP
  · exact I.makeActive _ _ _ hP

/-- What every operation and the board keep, every command keeps. -/
theorem exec_keeps {P : State → Prop} {R : Request → Prop} (K : OpsKept P R) (B : BoardKept P) (c : Instr)
    (s t : State) (hr : ∀ p, ∀ q ∈ (s.port p).requests, R q.request) (h : P s) (he : exec c s = .next t) : P t := by
  by_cases hc : c ∈ boardRows
  · simp only [boardRows, List.flatMap_cons, List.flatMap_nil, List.append_nil, List.cons_append, List.nil_append,
      List.mem_cons, List.not_mem_nil, or_false] at hc
    rcases hc with rfl | rfl | rfl | rfl | rfl | rfl | rfl | rfl | rfl
    · simp only [exec, execResetNAssert, Host.Outcome.next.injEq] at he
      subst he
      split
      · exact h
      · exact B.resetLine _ h
    all_goals
      first
        | (simp only [exec, execPowerOn, Host.Outcome.next.injEq] at he
           subst he
           exact B.powerOn _ _)
        | (simp only [exec, execResetNRelease, Host.Outcome.next.injEq] at he
           subst he
           split
           · exact B.release _ _ h
           · exact h)
  · exact exec_keeps_inside K c hc s t hr h he

/-- What every operation and the board keep, every step keeps; `P` does not look at the command queue. -/
theorem step_keeps {P : State → Prop} {R : Request → Prop} (K : OpsKept P R) (B : BoardKept P) (s t : State)
    (hr : ∀ p, ∀ q ∈ (s.port p).requests, R q.request) (h : P s) (he : step s = .next t) : P t := by
  have I := K.toPlainKept
  unfold step at he
  split at he
  · injection he with he; subst he
    unfold State.refclkEdge
    split
    · exact h
    · split
      · exact I.windowCheck _ (I.clock _ _ (I.clock _ _ h))
      · exact I.clock _ _ h
  · rename_i c rest hp
    exact exec_keeps K B c { s with pending := rest } t hr (I.pending s rest h) he

end Sys2Proof.Machine
end

