-- ==== Sys2Proof/Tests/Slice0.lean ====
section
/-! SUPPORT. The model's own tests: one step on a small state each, with figures of the manual's worked examples where it
has them; the well-formedness checks; and the values the manual writes out. -/

namespace Sys2Proof.Tests

set_option Elab.async false

open Sys2Proof Sys2Proof.Machine

/-! ### Well-formedness: each check refuses an ill-formed command -/

theorem test_wf_refuses_length_in_range :
    Instr.wf (.badLength 0 2) = false ∧ Instr.wf (.badLength 5 60) = false := by decide

theorem test_wf_takes_length_out_of_range :
    Instr.wf (.badLength 0 1) = true ∧ Instr.wf (.badLength 5 61) = true := by decide

theorem test_wf_refuses_no_gap :
    Instr.wf (.linkTimeout 3 0) = false ∧ Instr.wf (.linkTimeout 3 1) = true := by decide

/-! ### Values the manual writes out -/

/-- R150: the CRC of the nine characters 1 to 9 is 0x29B1. -/
theorem test_crc_check_value : crc [0x31, 0x32, 0x33, 0x34, 0x35, 0x36, 0x37, 0x38, 0x39] = 0x29B1#16 := by
  decide +kernel

/-- R40: the tags of indices 40, 5 and 17 at generations 0, 3 and 15 (chapter 3, worked example). -/
theorem test_hold_tags : holdTag 40 0 = 0x0028#16 ∧ holdTag 5 3 = 0x3005#16 ∧ holdTag 17 15 = 0xF011#16 := by
  decide +kernel

/-- No row of the table has bits. -/
theorem test_no_word_spells_a_command : decodeTableWord 16 0x1234 = none := rfl

/-! ### A small state -/

/-- The state a command leaves. -/
def after (c : Instr) (s : State) : State :=
  match exec c s with
  | .next t => t
  | _ => s

/-- A port with one more request in its queue. -/
def asking (p : PortId) (tag : Byte) (r : Request) (s : State) : State :=
  s.modifyPort p fun port => { port with requests := port.requests ++ [⟨tag, r⟩] }

/-- The answer of the grant in progress. -/
def answerOf (s : State) : Option Answer :=
  s.inFlight.map InFlight.answer

/-- Entry 1 of the worked example of chapter 3. -/
def giftSeries : SeriesFields :=
  ⟨true, 0x1A20000, 0xFFFFF00, 20000, 65536, 50000, 300, 1800, 0, true, 2⟩

/-- The worked example of chapter 3 at its start, without the other hold: slot 60,000 ACTIVE with 10,000, four indices
free. -/
def shop : State :=
  { State.reset with
    clock := ⟨5000, .tick, 0, 0⟩
    series := State.reset.series.set 1 ⟨giftSeries, 0⟩
    cards := [(60000, { Card.blank with state := .active, value := 10000 })]
    freeList := [40, 41, 5, 17] }

/-- The code of slot 60,000. -/
def giftCode : CardCode := 0x1A2000009C40#48

/-- The hold that LP2 opens on slot 60,000 in grant 1 of that example. -/
def giftHold : Hold :=
  openedHold 0 (.real 60000) 2 11 2500 5000 5300 false

/-- The example after grant 1. -/
def held : State :=
  { shop with
    series := State.reset.series.set 1 ⟨giftSeries, 1⟩
    cards := [(60000, { Card.blank with
      state := .active, value := 10000, held := 2500, chain := [40], useDay := 1, uses := 1
      last := some ⟨2, 11, 5000, .reserve⟩ })]
    holds := [(40, giftHold)]
    freeList := [41, 5, 17]
    expiry := [40] }

/-! ### Codes and slots -/

theorem test_code_of_slot :
    shop.codeOfSlot 60000 = giftCode ∧ shop.resolve giftCode = some (60000, 1) ∧ shop.governing 60000 = some 1 := by
  decide +kernel

/-! ### Till requests -/

theorem test_probe :
    answerOf (after .probe (asking 2 7 (.probe giftCode) shop)) = some (.probed false .active 10000 10000 0 255) := by
  decide +kernel

/-- Grant 1 of the example. -/
theorem test_reserve :
    let t := after .reserve (asking 2 7 (.reserve giftCode 11 2500 false false) shop)
    answerOf t = some (.held false 0x0028 2500 7500 5300) ∧ t.cards = held.cards ∧ t.holds = held.holds ∧
      t.freeList = held.freeList ∧ t.expiry = held.expiry ∧ t.series = held.series ∧ t.lastGranted = 2 := by
  decide +kernel

theorem test_reserve_no_funds :
    answerOf (after .reserve (asking 4 7 (.reserve giftCode 30 7501 false false) held)) =
      some (.noFunds false 7500) := by
  decide +kernel

/-- Grant 5 of the example. -/
theorem test_renew :
    let t := after .renew (asking 2 7 (.renew 0x0028) { held with clock := ⟨5200, .tick, 0, 0⟩ })
    answerOf t = some (.renewed 5500) ∧ (t.hold 40).deadline = 5500 ∧ (t.hold 40).renewals = 1 ∧ t.expiry = [40] := by
  decide +kernel

/-- Grant 6 of the example. -/
theorem test_renew_not_yours :
    answerOf (after .renew (asking 4 7 (.renew 0x0028) held)) = some (.plain .notYours) := by
  decide +kernel

theorem test_capture_below :
    let t := after .capture (asking 2 7 (.capture 0x0028 2000 12) held)
    answerOf t = some (.captured 2000 8000) ∧ (t.slotCard 60000).value = 8000 ∧ (t.slotCard 60000).held = 0 ∧
      t.accounts.current.captured = 2000 ∧ t.accounts.lifetime.captureCount = 1 ∧ t.freeList = [41, 5, 17, 40] ∧
      (t.hold 40).generation = 1 := by
  decide +kernel

theorem test_capture_short :
    answerOf (after .capture (asking 2 7 (.capture 0x0028 10001 12) held)) = some (.short 2500 7500) := by
  decide +kernel

theorem test_release :
    let t := after .release (asking 2 7 (.release 0x0028) held)
    answerOf t = some (.released 2500 10000) ∧ t.expiry = [] ∧ (t.entry 1).openHolds = 0 ∧
      (t.slotCard 60000).last = some ⟨2, 11, 5000, .release⟩ := by
  decide +kernel

theorem test_release_gone :
    answerOf (after .release (asking 2 7 (.release 0x1028) held)) = some (.plain .holdGone) := by
  decide +kernel

theorem test_redeem_partial :
    let t := after .redeem (asking 3 7 (.redeem giftCode 4 9000 true) held)
    answerOf t = some (.redeemed false 7500 2500) ∧ t.accounts.lifetime.captured = 7500 ∧
      (t.slotCard 60000).uses = 2 := by
  decide +kernel

theorem test_load_cut :
    let t := after .load (asking 3 7 (.load giftCode 4 45000) shop)
    answerOf t = some (.loaded false true 40000 50000) ∧ t.accounts.current.loaded = 40000 := by
  decide +kernel

/-! ### Grants in general -/

theorem test_ring_order :
    (asking 4 7 .accounts (asking 2 7 .accounts shop)).nextGrant = some (.port 2) ∧
    (asking 4 7 .accounts (asking 2 7 .accounts { shop with lastGranted := 2 })).nextGrant = some (.port 4) := by
  decide +kernel

theorem test_grant_completion :
    let t := after .grantCompletion (after .probe (asking 2 7 (.probe giftCode) shop))
    (t.port 2).answers = [⟨7, .probed false .active 10000 10000 0 255⟩] ∧ t.inFlight = none := by
  decide +kernel

theorem test_not_permitted_at_grant :
    answerOf (after .reserve (asking 0 7 (.reserve giftCode 11 2500 false false) shop)) =
      some (.plain .notPermitted) := by
  decide +kernel

/-! ### Background grants -/

theorem test_lapse :
    let t := after .lapse { held with clock := ⟨5300, .tick, 0, 0⟩ }
    (t.port 2).notices = [⟨.holdExpired 0x0028 (.real giftCode) 2500 11, false⟩] ∧ t.freeList = [41, 5, 17, 40] ∧
      (t.slotCard 60000).held = 0 ∧ (t.slotCard 60000).last = some ⟨2, 11, 5300, .expiry⟩ ∧ t.lastGranted = 6 := by
  decide +kernel

/-- A state whose unit S0 runs a sweep with its cursor somewhere. -/
def sweeping (params : SweepParams) (cursor : Nat) (s : State) : State :=
  s.modifySweep 0 fun _ => ⟨true, params, 0, cursor, .zero, .zero⟩

theorem test_search_step_hit :
    let t := after .searchStep (sweeping (.search 59000 61000 (.figure .value .ge 10000) .any 0 false) 60000 shop)
    (t.port 0).notices = [⟨.sweepDone 0 .hit 60001 (.search (some 60000) 1 false), false⟩] ∧
      (t.sweep 0).running = false := by
  decide +kernel

theorem test_search_step_passes :
    let t := after .searchStep (sweeping (.search 59000 61000 (.figure .value .ge 10001) .any 0 false) 60000 shop)
    (t.sweep 0).cursor = 60001 ∧ (t.sweep 0).running = true := by
  decide +kernel

theorem test_tally_step :
    let t := after .tallyStep (sweeping (.tally 60000 60000) 60000 held)
    (t.port 0).notices =
      [⟨.sweepDone 0 .done 60001 (.tally 10000 2500 1 .zero 5000), false⟩] := by
  decide +kernel

/-- R113: a change behind the cursor goes into the drift. -/
theorem test_tally_drift :
    let t := after .redeem (asking 3 7 (.redeem giftCode 4 500 false) (sweeping (.tally 59000 61000) 60001 shop))
    (t.sweep 0).drift = ⟨-500, 0, 0⟩ := by
  decide +kernel

theorem test_purge_step :
    let t := after .purgeStep (sweeping (.purge 2 none) 40 held)
    (t.sweep 0).results.freedCount = 1 ∧ (t.sweep 0).results.freedAmount = 2500 ∧ (t.sweep 0).cursor = 41 ∧
      (t.hold 40).isOpen = false ∧ t.freeList = [41, 5, 17, 40] := by
  decide +kernel

theorem test_purge_end :
    let t := after .purgeStep
      ((sweeping (.purge 2 (some 11)) 4095 shop).modifySweep 0 fun w =>
        { w with results := { w.results with freedCount := 3, freedAmount := 700 } })
    (t.port 2).notices = [⟨.holdsPurged 3 700, false⟩] ∧
      (t.port 0).notices = [⟨.sweepDone 0 .done 4096 (.purge 3 700), false⟩] := by
  decide +kernel

theorem test_issue_run_step :
    let t := after .issueRunStep (sweeping (.issueRun 60001 60009 4 1500) 60001 shop)
    t.slotCard 60001 = { Card.blank with state := .active, value := 1500 } ∧ (t.sweep 0).cursor = 60005 ∧
      t.accounts.lifetime.issued = 1500 ∧ (t.sweep 0).results.issuedCount = 1 := by
  decide +kernel

/-! ### Office requests -/

theorem test_set_series :
    let t := after .setSeries (asking 0 7 (.setSeries 2 { giftSeries with base := 90000, count := 5000 }) shop)
    answerOf t = some (.plain .done) ∧ (t.entry 2).fields.base = 90000 := by
  decide +kernel

theorem test_set_series_overlap :
    answerOf (after .setSeries (asking 0 7 (.setSeries 2 { giftSeries with base := 85535, count := 10 }) shop)) =
      some (.plain .overlap) := by
  decide +kernel

theorem test_read_series :
    answerOf (after .readSeries (asking 0 7 (.readSeries 1) held)) = some (.seriesRecord 1 ⟨giftSeries, 1⟩) := by
  decide +kernel

theorem test_issue :
    let t := after .issue (asking 0 7 (.issue (.slot 60001) 50000) shop)
    answerOf t = some (.issued 60001 50000) ∧ (t.slotCard 60001).state = .active ∧
      t.accounts.current.issued = 50000 := by
  decide +kernel

theorem test_issue_above_ceiling :
    answerOf (after .issue (asking 0 7 (.issue (.slot 60001) 50001) shop)) = some (.plain .badField) := by
  decide +kernel

theorem test_block :
    answerOf (after .block (asking 0 7 (.block (.code giftCode)) shop)) = some (.stateSet 60000 .blocked) := by
  decide +kernel

theorem test_unblock_active :
    answerOf (after .unblock (asking 0 7 (.unblock (.slot 60000)) shop)) = some (.plain .wrongState) := by
  decide +kernel

theorem test_retire_with_holds :
    answerOf (after .retire (asking 0 7 (.retire (.slot 60000)) held)) = some (.hasHolds 1) := by
  decide +kernel

theorem test_retire :
    let t := after .retire (asking 0 7 (.retire (.slot 60000)) shop)
    answerOf t = some (.retired 60000 10000) ∧ t.accounts.lifetime.writtenOff = 10000 ∧
      (t.slotCard 60000).value = 0 := by
  decide +kernel

/-- R25: the sum by which the value falls is a negative adjustment. -/
theorem test_edit_card :
    let t := after .editCard (asking 0 7 (.editCard (.slot 60000) true false 8000 0) held)
    answerOf t = some (.edited 60000 8000 2500 1 1) ∧ t.accounts.lifetime.adjusted = -2000 := by
  decide +kernel

theorem test_edit_card_below_held :
    answerOf (after .editCard (asking 0 7 (.editCard (.slot 60000) true false 2499 0) held)) =
      some (.plain .badField) := by
  decide +kernel

theorem test_read_card :
    answerOf (after .readCard (asking 0 7 (.readCard (.slot 60000)) held)) =
      some (.cardRecord 60000 (held.slotCard 60000) 7500 1 [0x0028]) := by
  decide +kernel

theorem test_read_hold :
    answerOf (after .readHold (asking 0 7 (.readHold 40) held)) = some (.holdRecord 40 giftHold (some 1)) := by
  decide +kernel

theorem test_search_start :
    let t := after .search (asking 0 7 (.search 5 9 .any .any 0 true) shop)
    answerOf t = some (.accepted 0) ∧ (t.sweep 0).running = true ∧ (t.sweep 0).cursor = 5 := by
  decide +kernel

theorem test_tally_start_second_unit :
    answerOf (after .tally (asking 0 7 (.tally 5 9) (sweeping (.purge 2 none) 40 shop))) = some (.accepted 1) := by
  decide +kernel

theorem test_purge_start :
    let t := after .purge (asking 0 7 (.purge 2 (some 11)) shop)
    answerOf t = some (.accepted 0) ∧ (t.sweep 0).params = .purge 2 (some 11) := by
  decide +kernel

theorem test_issue_run_span :
    answerOf (after .issueRun (asking 0 7 (.issueRun 60001 85535 8 50000) shop)) = some (.accepted 0) ∧
    answerOf (after .issueRun (asking 0 7 (.issueRun 60001 85536 8 50000) shop)) = some (.plain .badField) := by
  decide +kernel

theorem test_cancel_sweep :
    let t := after .cancelSweep (asking 0 7 (.cancelSweep 0) (sweeping (.tally 5 9) 7 shop))
    answerOf t = some (.cancelled 0 .tally) ∧ (t.sweep 0).running = false ∧ (t.sweep 0).cursor = 7 := by
  decide +kernel

theorem test_cancel_idle :
    answerOf (after .cancelSweep (asking 0 7 (.cancelSweep 1) shop)) = some (.plain .notRunning) := by
  decide +kernel

/-! ### The day and the clock -/

/-- The state with a close pending since 4,999 whose owner is LP0. -/
def closing : State :=
  { held with accounts := { Accounts.start with close := .closing 0 .zero 5029 } }

theorem test_close_day :
    let t := after .closeDay (asking 0 7 .closeDay shop)
    answerOf t = some (.closeReady 1 .zero 5030) ∧ t.accounts.close = .closing 0 .zero 5030 := by
  decide +kernel

theorem test_confirm_close :
    let t := after .confirmClose (asking 0 7 .confirmClose closing)
    answerOf t = some (.closed 1 2) ∧ t.accounts.closedDays = [⟨1, .zero, 0, 5000⟩] ∧ t.accounts.day = 2 := by
  decide +kernel

/-- R130: a request of the owner drops its close. -/
theorem test_stray_request :
    let t := after .accounts (asking 0 7 .accounts closing)
    t.accounts.close = .opened ∧ (t.port 0).notices = [⟨.closeDropped 1 .strayRequest, false⟩] := by
  decide +kernel

theorem test_window_expiry :
    let t := after .windowExpiry { closing with clock := ⟨5029, .tick, 0, 0⟩ }
    t.accounts.close = .opened ∧ (t.port 0).notices = [⟨.closeDropped 1 .window, false⟩] := by
  decide +kernel

theorem test_day_report_not_kept :
    answerOf (after .dayReport (asking 0 7 (.dayReport 9) shop)) = some (.notKept 0 0) := by
  decide +kernel

theorem test_accounts :
    answerOf (after .accounts (asking 0 7 .accounts shop)) = some (.accounts .zero .zero .zero 1 .opened 0) := by
  decide +kernel

theorem test_set_time :
    let t := after .setTime (asking 0 7 (.setTime 9000) shop)
    answerOf t = some (.timeSet 5000 9000) ∧ t.clock.time = 9000 := by
  decide +kernel

theorem test_tick_second : (after .tickSecond shop).clock.time = 5001 := by decide +kernel

theorem test_divider_second :
    after .dividerSecond shop = shop ∧
    (after .dividerSecond { shop with clock := ⟨5000, .divided, 4, 2⟩ }).clock = ⟨5001, .divided, 4, 0⟩ := by
  decide +kernel

theorem test_refclk_edge :
    ({ shop with clock := ⟨5000, .divided, 4, 2⟩ } : State).refclkEdge.clock = ⟨5000, .divided, 4, 3⟩ ∧
    ({ shop with clock := ⟨5000, .divided, 4, 3⟩ } : State).refclkEdge.clock = ⟨5001, .divided, 4, 0⟩ := by
  decide +kernel

/-! ### Settings -/

theorem test_trial_set :
    let t := after .trialSet (asking 0 7 (.trialSet true #v[1, 2, 3, 99999]) shop)
    t.trialBases = #v[1, 2, 3, 99999] ∧ (t.card (.trial 3)).value = 99999 := by
  decide +kernel

theorem test_set_port :
    let t := after .setPort (asking 0 7 (.setPort 4 .till .trial) shop)
    answerOf t = some (.portSet .till .trial) ∧ (t.port 4).mode = .trial := by
  decide +kernel

theorem test_set_port_last_office :
    answerOf (after .setPort (asking 0 7 (.setPort 0 .till .normal) shop)) = some (.plain .lastOffice) := by
  decide +kernel

theorem test_set_timing :
    let t := after .setTiming (asking 0 7 (.setTiming 3 50 .reset 60 .divided 4096) shop)
    answerOf t = some (.timingSet 50 .reset 60 .divided 4096) ∧ (t.port 3).timeout = 50 ∧ t.accounts.window = 60 ∧
      t.clock = ⟨5000, .divided, 4096, 0⟩ := by
  decide +kernel

theorem test_reset_port :
    let t := after .resetPort (asking 2 9 .collect (asking 0 7 (.resetPort 2) shop))
    answerOf t = some (.plain .done) ∧ (t.port 2).requests = [] := by
  decide +kernel

/-- A port that is OFF. -/
def cutOff (p : PortId) (s : State) : State :=
  s.modifyPort p fun port => { port with health := .off, errorCount := 255, idleRun := 63 }

theorem test_restore_port :
    let t := after .restorePort (asking 0 7 (.restorePort 2) (cutOff 2 shop))
    answerOf t = some (.restored .off 255 .active 0) ∧
      (t.port 2).notices = [⟨.portState 2 .off .active 0 .restore, false⟩] := by
  decide +kernel

/-! ### Port-local answers -/

theorem test_collect :
    let t := after (.collect 2) (asking 2 7 .collect (shop.notify 2 (.holdsPurged 3 700)))
    (t.port 2).answers = [⟨7, .notice (.holdsPurged 3 700) false 0⟩] ∧ (t.port 2).notices = [] := by
  decide +kernel

theorem test_collect_none :
    ((after (.collect 2) (asking 2 7 .collect shop)).port 2).answers = [⟨7, .plain .none⟩] := by
  decide +kernel

theorem test_status :
    ((after (.status 0) (asking 0 7 .status shop)).port 0).answers = [⟨7, .status 4 [none, none] none 1 5000⟩] := by
  decide +kernel

theorem test_port_status :
    ((after (.portStatus 0) (asking 0 7 (.portStatus 2) (cutOff 2 shop))).port 0).answers =
      [⟨7, .portRecord ⟨.till, .normal, .off, 255, 20, .drop, 0, 0, 0, false, false, 63⟩⟩] := by
  decide +kernel

theorem test_ident :
    ((after (.ident 3) (asking 3 7 .ident shop)).port 3).answers = [⟨7, .identity⟩] := by
  decide +kernel

/-! ### The line -/

/-- A receiver at a stage. -/
def receiving (p : PortId) (r : Receiver) (s : State) : State :=
  s.modifyPort p fun port => { port with receiver := r }

theorem test_byte_received :
    ((after (.byteReceived 2 0xC5) shop).port 2).receiver = .length ∧
    ((after (.byteReceived 2 0xC4) shop).port 2).receiver = .hunt := by
  decide +kernel

/-- A PROBE frame's last byte: the request is taken, its tag 0x11 with it. -/
theorem test_frame_received :
    let body : List Byte := [0x11, 0x10, 0x1A, 0x20, 0x00, 0x00, 0x9C, 0x40]
    ((after (.frameReceived 2 (lowByte (frameCrc body)))
      (receiving 2 (.check body (some (highByte (frameCrc body)))) shop)).port 2).requests =
      [⟨0x11, .probe giftCode⟩] := by
  decide +kernel

/-- A CRC mismatch is a link error. -/
theorem test_frame_mismatch :
    ((after (.frameReceived 2 0) (receiving 2 (.check [0x11, 0x20] (some 0)) shop)).port 2).errorCount = 8 := by
  decide +kernel

theorem test_idle :
    let body : List Byte := [0x00, 0x00]
    ((after (.idle 2 (lowByte (frameCrc body)))
      ((receiving 2 (.check body (some (highByte (frameCrc body)))) shop).modifyPort 2
        fun port => { port with errorCount := 9 })).port 2).errorCount = 8 := by
  decide +kernel

theorem test_bad_length :
    ((after (.badLength 2 61) (receiving 2 .length shop)).port 2).errorCount = 8 ∧
    ((after (.badLength 2 61) (receiving 2 .length shop)).port 2).receiver = .hunt := by
  decide +kernel

theorem test_idle_recovery :
    let body : List Byte := [0x00, 0x00]
    let t := after (.idleRecovery 2 (lowByte (frameCrc body)))
      (receiving 2 (.check body (some (highByte (frameCrc body)))) (cutOff 2 shop))
    (t.port 2).health = .active ∧ (t.port 2).notices = [⟨.portState 2 .off .active 0 .idleRecovery, false⟩] := by
  decide +kernel

theorem test_link_timeout :
    ((after (.linkTimeout 2 21) (receiving 2 .length shop)).port 2).errorCount = 8 ∧
    ((after (.linkTimeout 2 20) (receiving 2 .length shop)).port 2).gap = 20 := by
  decide +kernel

/-- The frame of an answer RENEWED with deadline 5,500: length 6, tag, outcome 0x02, four bytes. -/
theorem test_answer_transmit_start :
    let t := after (.answerTransmitStart 2) (shop.pushAnswer 2 7 (.renewed 5500))
    (t.port 2).sending.map (List.take 8) = some [0xC5, 0x06, 0x07, 0x02, 0x00, 0x00, 0x15, 0x7C] ∧
      (t.port 2).answers = [] := by
  decide +kernel

theorem test_answer_sent :
    ((after (.answerSent 2) (after (.answerTransmitStart 2) (shop.pushAnswer 2 7 (.renewed 5500)))).port 2).sending =
      none := by
  decide +kernel

/-! ### The board -/

theorem test_power_on :
    let t := after (.powerOn true false) held
    t.cards = [] ∧ t.holds = [] ∧ t.lineRate = .b38400 ∧ t.clock.time = 0 := by
  decide +kernel

theorem test_reset_assert :
    let t := after .resetNAssert closing
    t.holds = [(40, { giftHold with isOpen := false, generation := 1 })] ∧ t.freeList = [41, 5, 17, 40] ∧
      (t.slotCard 60000).held = 0 ∧ (t.slotCard 60000).value = 10000 ∧ t.accounts.close = .opened ∧
      t.resetLow = true := by
  decide +kernel

theorem test_reset_release :
    let t := after (.resetNRelease true true) { shop with resetLow := true }
    t.resetLow = false ∧ t.lineRate = .b115200 := by
  decide +kernel

/-- A step takes the front of the queue; an empty queue is an edge of REFCLK. -/
theorem test_step :
    step { shop with pending := [.tickSecond, .answerSent 2] } =
      .next { shop with clock := ⟨5001, .tick, 0, 0⟩, pending := [.answerSent 2] } := rfl

/-! ### Witnesses: a state and operands that meet the hypotheses of each obligation, clause by clause -/

/-- Port `p` asks for `r` in `s`. -/
abbrev asked (p : PortId) (r : Request) (s : State) : State :=
  asking p 7 r s

/-- The state the request meets once its grant has started. -/
abbrev met (p : PortId) (r : Request) (s : State) : State :=
  (asked p r s).startGrant p r

/-- The engine's next grant is the request that port `p` asks for. -/
abbrev grants (p : PortId) (r : Request) (s : State) : Prop :=
  Granted (asked p r s) p 7 r (met p r s)

theorem grants_of {p : PortId} {r : Request} {s : State}
    (h : (asked p r s).nextRequest = some (p, ⟨7, r⟩) ∧ r.permitted ((met p r s).port p).role p = true) :
    grants p r s :=
  ⟨h.1, rfl, h.2⟩

/-- A card of another state or use in slot 60,000. -/
def withCard (f : Card → Card) (s : State) : State :=
  { s with cards := [(60000, f (s.slotCard 60000))] }

/-- Slot 60,000 with `n` holds on its chain, as far as its record shows. -/
def chained (n : Nat) (s : State) : State :=
  withCard (fun c => { c with chain := List.range n }) s

/-- Entry 1 with other rules. -/
def withRules (f : SeriesFields) (s : State) : State :=
  s.modifyEntry 1 fun e => { e with fields := f }

/-- Port 2 in another health state. -/
def withHealth (h : Health) (s : State) : State :=
  s.modifyPort 2 fun port => { port with health := h }

/-- Port 2 in mode TRIAL. -/
def onTrial (s : State) : State :=
  s.modifyPort 2 fun port => { port with mode := .trial }

theorem test_witness_StepRunsTheFrontCommand : shop.pending = [] := rfl

theorem test_witness_GrantStartDropsAStrayClose :
    closing.accounts.close.owner? = some 0 ∧ Request.accounts.kind ≠ .confirmClose ∧
      Request.confirmClose.kind = .confirmClose ∧ shop.accounts.close.owner? ≠ some 0 := by
  decide +kernel

theorem test_witness_UngrantedRowChangesNothing :
    Instr.probe ∈ grantRows ∧ shop.nextRow ≠ some .probe ∧ (asked 2 .accounts shop).nextRow ≠ some .probe := by
  decide +kernel

theorem test_witness_GrantOfUnpermittedRequest :
    let r : Request := .release 0x0028
    (asked 0 r held).nextRequest = some (0, ⟨7, r⟩) ∧ r.row = some .release ∧
      r.permitted ((asked 0 r held).port 0).role 0 = false := by
  decide +kernel

theorem test_witness_GrantCompletionHandsTheAnswerOver :
    shop.inFlight = none ∧ (after .accounts (asked 0 .accounts shop)).inFlight.isSome = true ∧
      (((after .accounts (asked 0 .accounts shop)).portReset 0).inFlight.map InFlight.discarded) = some true := by
  decide +kernel

theorem test_witness_ResetLineKeepsAndClears : closing.resetLow = false ∧ TablesOk closing := by
  refine ⟨rfl, ?_⟩
  unfold TablesOk
  decide +kernel

theorem test_witness_ResetReleaseSamplesStraps :
    ({ shop with resetLow := true } : State).resetLow = true ∧ shop.resetLow = false := ⟨rfl, rfl⟩

/-- The divided clock with divisor 4 and a divider. -/
def dividing (divider : Nat) : State :=
  { shop with clock := ⟨5000, .divided, 4, divider⟩ }

theorem test_witness_SecondEventsRaiseDeviceTime :
    shop.clock.base = .tick ∧ (dividing 2).clock.base = .divided ∧
      (dividing 2).clock.divider + 1 < (dividing 2).clock.divisor ∧
      (dividing 3).clock.divisor ≤ (dividing 3).clock.divider + 1 := by
  decide +kernel

theorem test_witness_WindowExpiryDropsTheClose :
    shop.accounts.close = .opened ∧ closing.accounts.close = .closing 0 .zero 5029 ∧ closing.clock.time < 5029 ∧
      5029 ≤ (closing.setTime 5029).clock.time := by
  decide +kernel

theorem test_witness_LapseFreesTheHead :
    (held.setTime 5300).nextGrant = some .expiry ∧ (held.setTime 5300).expiry = 40 :: [] := by
  decide +kernel

/-- S0 in a SEARCH of slots 59,000 to `stop` for value 10,000, at slot 60,000. -/
def searching (stop limit : Nat) (skip : Bool) (s : State) : State :=
  sweeping (.search 59000 stop (.figure .value .eq 10000) .any limit skip) 60000 s

theorem test_witness_SearchStepJudgesItsSlot :
    (searching 61000 0 false shop).nextSweep = some 0 ∧
    (searching 61000 0 false shop).accounts.day = 1 ∧
    (∀ st, st ∈ [CardState.blank, .active, .blocked, .retired] →
      ((searching 61000 0 false (withCard (fun c => { c with state := st }) shop)).slotCard 60000).state = st) ∧
    (Criterion.figure .value .eq 10000).met (shop.slotCard 60000) 1 = true ∧ Criterion.any.met Card.blank 1 = true ∧
    (Criterion.figure .value .eq 10000).met (({ Card.blank with value := 9999 })) 1 = false ∧
    ((searching 60000 0 false shop).sweep 0).cursor = 60000 ∧
    1 ≤ ((searching 61000 1 false shop).sweep 0).results.examined + 1 ∧
    ((searching 61000 2 false shop).sweep 0).results.examined + 1 < 2 ∧
    (shop.slotCard 60000).last = none ∧ (held.slotCard 60000).last.isSome = true := by
  decide +kernel

theorem test_witness_TallyStepAddsTheContribution :
    (sweeping (.tally 60000 60000) 60000 held).nextSweep = some 0 ∧
      ((sweeping (.tally 60000 60000) 60000 held).sweep 0).params = .tally 60000 60000 ∧
      (held.slotCard 60000).state = .active ∧ (held.slotCard 60001).state = .blank := by
  decide +kernel

theorem test_witness_PurgeStepFreesAMatch :
    let s := sweeping (.purge 2 (some 11)) 40 held
    s.nextSweep = some 0 ∧ (s.sweep 0).params = .purge 2 (some 11) ∧ (s.hold 40).isOpen = true ∧
      (s.hold 40).owner = 2 ∧ (s.hold 40).till = 11 ∧ (s.hold 4095).isOpen = false := by
  decide +kernel

theorem test_witness_IssueRunStepIssuesABlankSlot :
    let s := sweeping (.issueRun 60000 60001 1 1500) 60001 held
    s.nextSweep = some 0 ∧ (s.sweep 0).params = .issueRun 60000 60001 1 1500 ∧
      (s.slotCard (s.sweep 0).cursor).state = .blank ∧ (s.slotCard 60000).state ≠ .blank := by
  decide +kernel

theorem test_witness_SweepEndQueuesItsNotices :
    let e : NoticeEntry := ⟨.closeDropped 1 .window, false⟩
    (List.replicate 15 e).length < 16 ∧ (List.replicate 15 e).length = 15 := by
  decide +kernel

theorem test_witness_ReceiverStagesTakeBytes :
    ({ shop with resetLow := true } : State).resetLow = true ∧ shop.resetLow = false ∧
      (shop.port 2).receiver = .hunt ∧ ((receiving 2 .length shop).port 2).receiver = .length ∧
      ((receiving 2 (.body 2 []) shop).port 2).receiver = .body 2 [] ∧ ([] : List Byte).length + 1 < 2 ∧
      2 ≤ ([0x11] : List Byte).length + 1 ∧
      ((receiving 2 (.check [0x11, 0x20] none) shop).port 2).receiver = .check [0x11, 0x20] none ∧
      2 ≤ (60 : Byte).toNat ∧ (60 : Byte).toNat ≤ 60 := by
  decide +kernel

theorem test_witness_LinkErrorsAreCounted :
    (60 < (61 : Byte).toNat ∧ (1 : Byte).toNat < 2) ∧
      ¬((0 : Byte) = highByte (frameCrc [0x11, 0x20]) ∧ (0 : Byte) = lowByte (frameCrc [0x11, 0x20])) ∧
      ((cutOff 2 shop).port 2).health = .off ∧ (shop.port 2).health ≠ .off ∧ (shop.port 2).errorCount + 8 ≤ 255 ∧
      255 < ((shop.setCount 2 248 .errors).port 2).errorCount + 8 := by
  decide +kernel

/-- Port 2 with a count and so many requests and answers queued. -/
def crowded (count requests answers : Nat) (s : State) : State :=
  s.modifyPort 2 fun port =>
    { port with
      errorCount := count
      requests := List.replicate requests ⟨7, .ident⟩
      answers := List.replicate answers ⟨7, .identity⟩ }

/-- Kinds and fields that meet each check of a till's frame, and queues at the limits of four requests and eight places. -/
theorem test_witness_FrameIsJudgedInOrder :
    kindOfByte 0x01 = none ∧ kindOfByte 0x10 = some .probe ∧ ([0] : List Byte).length + 2 ≠ Kind.probe.bodyLength ∧
      (shop.port 2).role = .till ∧ ([] : List Byte).length + 2 = Kind.status.bodyLength ∧
      ([3] : List Byte).length + 2 = Kind.portStatus.bodyLength ∧ (([3] : List Byte).headD 0).toNat ≠ (2 : PortId).val ∧
      (([2] : List Byte).headD 0).toNat = (2 : PortId).val ∧ (shop.port 0).role = .office ∧
      requestOf .load (List.replicate 11 0) = none ∧ (List.replicate 11 (0 : Byte)).length + 2 = Kind.load.bodyLength ∧
      requestOf .probe [0x1A, 0x20, 0x00, 0x00, 0x9C, 0x40] = some (.probe giftCode) ∧
      ((crowded 0 4 4 shop).port 2).requests.length = 4 ∧ (crowded 0 4 4 shop).takenPlaces 2 = 8 ∧
      (crowded 0 4 3 shop).takenPlaces 2 = 7 ∧ (crowded 0 3 5 shop).takenPlaces 2 = 8 ∧
      ((crowded 0 3 4 shop).port 2).requests.length = 3 ∧ (crowded 0 3 4 shop).takenPlaces 2 = 7 ∧
      ((crowded 255 0 0 shop).port 2).errorCount = 255 ∧ ((crowded 254 4 4 shop).port 2).errorCount < 255 ∧
      ((crowded 254 4 4 shop).port 2).health ≠ .off := by
  decide +kernel

theorem test_witness_IdleFramesRecoverAPort :
    let at' (run : Nat) : State := (cutOff 2 shop).modifyPort 2 fun port => { port with idleRun := run }
    let body : List Byte := [0, 0]
    ((at' 62).port 2).idleRun + 1 < 64 ∧ 64 ≤ ((at' 63).port 2).idleRun + 1 ∧ ((at' 62).port 2).health = .off ∧
      (shop.port 2).health ≠ .off ∧ body.length = 2 ∧ (body.drop 1).headD 0 = 0 := by
  decide +kernel

theorem test_witness_EntryToOffCutsThePortOff :
    closing.accounts.close.owner? = some 0 ∧ closing.accounts.close.owner? ≠ some 2 ∧ (closing.port 0).role = .office ∧
      (closing.port 3).role = .till := by
  decide +kernel

theorem test_witness_LinkTimeoutEndsTheFrame :
    let s := receiving 2 .length shop
    (s.port 2).receiver ≠ .hunt ∧ (shop.port 2).receiver = .hunt ∧ max (s.port 2).gap 20 ≤ (s.port 2).timeout ∧
      (s.port 2).timeout ≠ 0 ∧ (s.port 2).timeout < max (s.port 2).gap 21 ∧ (s.port 2).recovery = .drop ∧
      ((s.modifyPort 2 fun port => { port with timeout := 0, recovery := .reset }).port 2).timeout = 0 ∧
      ((s.modifyPort 2 fun port => { port with recovery := .reset }).port 2).recovery = .reset := by
  decide +kernel

theorem test_witness_TransmitterSendsTheOldestAnswer :
    let s := shop.pushAnswer 2 7 (.renewed 5500)
    (s.port 2).sending = none ∧ (s.port 2).answers = ⟨7, .renewed 5500⟩ :: [] ∧ (shop.port 2).answers = [] ∧
      ((after (.answerTransmitStart 2) s).port 2).sending ≠ none ∧
      (Answer.trialCards shop.trialCards).layout.2.length ≠ 1 ∧ (∀ o, Answer.renewed 5500 ≠ .plain o) ∧
      (Answer.renewed 5500).layout.1 = 0x02 := by
  refine ⟨?_, ?_, ?_, ?_, ?_, nofun, ?_⟩ <;> decide +kernel

/-- A TRIAL-IN-USE is one frame, whatever it carries (R177, log 11); the DONE answer of TRIAL-SET is two. -/
theorem test_trialAnswers_frames (cards : Vector Card 4) :
    (Answer.trialInUse cards).parts.length = 1 ∧ (Answer.trialCards cards).parts.length = 2 :=
  ⟨rfl, rfl⟩

/-- Every entry but entry 1 is as at power-on. -/
theorem entry_shop (e : EntryId) : (shop.entry e).fields = if e = 1 then giftSeries else SeriesEntry.cleared.fields := by
  revert e
  decide +kernel

theorem seriesOk_shop : SeriesOk shop where
  ranges e := by
    rw [entry_shop]
    split
    · right; decide +kernel
    · left; rfl
  widths e := by
    rw [entry_shop]
    split <;> decide +kernel
  disjoint e o hne he ho := by
    rw [entry_shop] at he ho
    split at he <;> split at ho <;> simp_all [SeriesEntry.cleared]

theorem test_witness_CodesAndSlotsReachCards :
    SeriesOk shop ∧ shop.resolve giftCode = some (60000, 1) ∧ shop.governing 20000 = some 1 ∧
      shop.governing 85535 = some 1 ∧ ((onTrial shop).port 2).mode = .trial ∧ (shop.port 2).mode = .normal ∧
      shop.resolve 0 = none :=
  ⟨seriesOk_shop, by decide +kernel⟩

theorem test_witness_ProbeReportsTheCard :
    (grants 2 (.probe 0) shop ∧ (met 2 (.probe 0) shop).target 2 0 = none) ∧
      grants 2 (.probe giftCode) shop ∧
      (met 2 (.probe giftCode) shop).target 2 giftCode = some ⟨.real 60000, giftSeries.rules⟩ :=
  ⟨⟨grants_of (by decide +kernel), by decide +kernel⟩, grants_of (by decide +kernel), by decide +kernel⟩

theorem test_witness_SalesAreRefusedInOrder :
    grants 2 (.redeem giftCode 4 100 false) shop ∧ grants 2 (.load giftCode 4 100) shop ∧
      ((met 2 (.redeem giftCode 4 100 false) (withHealth .muted shop)).port 2).health = .muted ∧
      (met 2 (.redeem 0 4 100 false) shop).target 2 0 = none ∧
      (∀ st, st ∈ [CardState.blank, .blocked, .retired] →
        ((met 2 (.load giftCode 4 100) (withCard (fun c => { c with state := st }) shop)).slotCard 60000).state = st) ∧
      ¬UseAllowed 1 (held.slotCard 60000) 1 ∧ UseAllowed 2 (held.slotCard 60000) 1 ∧
      ((held.slotCard 60000).value - (held.slotCard 60000).held < 7501 ∧ (false && giftSeries.partialAllowed) = false) ∧
      AmountFound 7500 7500 false 7500 ∧ ((chained 8 shop).slotCard 60000).chain.length = 8 ∧
      ((chained 7 shop).slotCard 60000).chain.length < 8 ∧ ({ shop with freeList := [] } : State).freeList = [] ∧
      ((withRules { giftSeries with ceiling := 10000 } shop).entry 1).fields.ceiling ≤ (shop.slotCard 60000).value := by
  refine ⟨grants_of (by decide +kernel), grants_of (by decide +kernel), by decide +kernel, by decide +kernel,
    by decide +kernel, ?_, ?_, by decide +kernel, ?_, by decide +kernel⟩
  · unfold UseAllowed; decide +kernel
  · unfold UseAllowed; decide +kernel
  · unfold AmountFound; decide

theorem test_witness_ReserveOpensAHold :
    let r : Request := .reserve giftCode 11 7501 true false
    let t : Target := ⟨.real 60000, giftSeries.rules⟩
    let s1 := met 2 r held
    grants 2 r held ∧ (s1.port 2).health ≠ .muted ∧ s1.target 2 giftCode = some t ∧
      (s1.card t.ref).state = .active ∧ UseAllowed t.rules.useLimit (s1.card t.ref) s1.accounts.day ∧
      AmountFound ((s1.card t.ref).value - (s1.card t.ref).held) 7501 (true && t.rules.partialAllowed) 7500 ∧
      (s1.card t.ref).chain.length < 8 ∧ s1.freeList = 41 :: [5, 17] := by
  refine ⟨grants_of (by decide +kernel), by decide +kernel, by decide +kernel, by decide +kernel,
    Or.inl (by decide +kernel), ?_, by decide +kernel, by decide +kernel⟩
  unfold AmountFound; decide +kernel

theorem test_witness_TagsAreRefused :
    holdTag 40 0 = 0x0028 ∧ grants 4 (.renew (holdTag 40 0)) held ∧ grants 2 (.renew (holdTag 40 1)) held ∧
      grants 2 (.capture (holdTag 40 0) 10001 12) held ∧ grants 2 (.release (holdTag 4095 0)) held ∧
      ((met 4 (.renew (holdTag 40 0)) held).hold 40).isOpen = true ∧
      ((met 4 (.renew (holdTag 40 0)) held).hold 40).owner ≠ 4 ∧
      ((met 2 (.capture (holdTag 40 0) 10001 12) held).hold 40).amount < 10001 ∧
      (held.slotCard 60000).value - (held.slotCard 60000).held < 10001 - 2500 ∧
      ((withRules { giftSeries with renewLimit := 0 } held).entry 1).fields.renewLimit ≤ (held.hold 40).renewals :=
  ⟨by decide +kernel, grants_of (by decide +kernel), grants_of (by decide +kernel), grants_of (by decide +kernel),
    grants_of (by decide +kernel), by decide +kernel⟩

theorem test_witness_RenewMovesTheDeadline :
    let r : Request := .renew (holdTag 40 0)
    let s1 := met 2 r held
    grants 2 r held ∧ (s1.hold 40).generation = 0 ∧ (s1.hold 40).isOpen = true ∧ (s1.hold 40).owner = 2 ∧
      (s1.hold 40).card = .real 60000 ∧ s1.governing 60000 = some 1 ∧
      (s1.hold 40).renewals < (s1.entry 1).fields.renewLimit :=
  ⟨grants_of (by decide +kernel), by decide +kernel⟩

theorem test_witness_CaptureCompletesASale :
    let r (final : Nat) : Request := .capture (holdTag 40 0) final 12
    grants 2 (r 2500) held ∧ grants 2 (r 10000) held ∧ (held.hold 40).isOpen = true ∧ (held.hold 40).owner = 2 ∧
      (held.hold 40).generation = 0 ∧ 2500 ≤ (held.hold 40).amount ∧
      10000 - (held.hold 40).amount ≤ (held.slotCard 60000).value - (held.slotCard 60000).held :=
  ⟨grants_of (by decide +kernel), grants_of (by decide +kernel), by decide +kernel⟩

theorem test_witness_ReleaseReturnsTheHold :
    grants 2 (.release (holdTag 40 0)) held ∧ (held.hold 40).isOpen = true ∧ (held.hold 40).owner = 2 ∧
      (held.hold 40).generation = 0 :=
  ⟨grants_of (by decide +kernel), by decide +kernel⟩

theorem test_witness_RedeemTakesValue :
    let r : Request := .redeem giftCode 4 7500 false
    let t : Target := ⟨.real 60000, giftSeries.rules⟩
    let s1 := met 2 r held
    grants 2 r held ∧ (s1.port 2).health ≠ .muted ∧ s1.target 2 giftCode = some t ∧
      (s1.card t.ref).state = .active ∧ UseAllowed t.rules.useLimit (s1.card t.ref) s1.accounts.day ∧
      AmountFound ((s1.card t.ref).value - (s1.card t.ref).held) 7500 (false && t.rules.partialAllowed) 7500 := by
  refine ⟨grants_of (by decide +kernel), by decide +kernel, by decide +kernel, by decide +kernel,
    Or.inl (by decide +kernel), ?_⟩
  unfold AmountFound; decide +kernel

/-- On a trial card too. -/
theorem test_witness_LoadAddsValue :
    let r : Request := .load giftCode 4 45000
    grants 2 r shop ∧ (met 2 r shop).target 2 giftCode = some ⟨.real 60000, giftSeries.rules⟩ ∧
      ((met 2 r shop).slotCard 60000).state = .active ∧ ((met 2 r shop).slotCard 60000).value < 50000 ∧
      grants 2 r (onTrial shop) ∧
      (met 2 r (onTrial shop)).target 2 giftCode = some ⟨.trial 0, Config.trialRules⟩ ∧
      ((met 2 r (onTrial shop)).card (.trial 0)).state = .active ∧
      ((met 2 r (onTrial shop)).card (.trial 0)).value < Config.trialRules.ceiling :=
  ⟨grants_of (by decide +kernel), by decide +kernel, by decide +kernel, by decide +kernel,
    grants_of (by decide +kernel), by decide +kernel⟩

theorem test_witness_CollectTakesTheOldestNotice :
    let s := asked 2 .collect (shop.notify 2 (.holdsPurged 3 700))
    (s.port 2).requests = ⟨7, .collect⟩ :: [] ∧ s.inFlightAt 2 = false ∧
      (s.port 2).notices = ⟨.holdsPurged 3 700, false⟩ :: [] ∧ ((asked 2 .collect shop).port 2).notices = [] ∧
      (asked 2 .collect (after .probe (asked 2 (.probe giftCode) shop))).inFlightAt 2 = true := by
  decide +kernel

theorem test_witness_PortsAnswerTheirOwnRequests :
    let s := asked 0 .status (after .probe (asked 2 (.probe giftCode) shop))
    (s.port 0).requests = ⟨7, .status⟩ :: [] ∧ s.inFlightAt 0 = false ∧ (s.port 0).role = .office ∧
      s.inFlight.isSome = true ∧ (asked 0 .status shop).inFlight = none ∧ (shop.port 2).role = .till := by
  decide +kernel

theorem test_witness_SetSeriesChecksAndWrites :
    let f : SeriesFields := { giftSeries with base := 85536, count := 45536 }
    grants 0 (.setSeries 1 giftSeries) held ∧ grants 0 (.setSeries 2 f) held ∧ f.base + f.count ≤ 131072 ∧
      ¬(f.base + (f.count + 1) ≤ 131072) ∧ 0 < (held.entry 1).openHolds ∧ giftSeries.base ≠ 20001 ∧
      (held.entry 1).fields.enabled = true ∧ 85535 < (held.entry 1).fields.base + (held.entry 1).fields.count :=
  ⟨grants_of (by decide +kernel), grants_of (by decide +kernel), by decide +kernel⟩

theorem test_witness_OfficeReadersChangeNothing :
    grants 0 (.readSeries 1) held ∧ grants 0 (.readCard (.slot 131071)) held ∧ grants 0 (.readCard (.code giftCode)) held ∧
      held.resolve giftCode = some (60000, 1) ∧ held.resolve 0 = none ∧ grants 0 (.readHold 40) held ∧
      grants 0 (.dayReport 1) held ∧ held.accounts.closedDays = [] ∧ grants 0 .accounts held ∧
      (after .confirmClose (asked 0 .confirmClose closing)).accounts.closedDays.find? (fun x => x.day = 1) =
        some ⟨1, .zero, 0, 5000⟩ :=
  ⟨grants_of (by decide +kernel), grants_of (by decide +kernel), grants_of (by decide +kernel), by decide +kernel,
    by decide +kernel, grants_of (by decide +kernel), grants_of (by decide +kernel), by decide +kernel,
    grants_of (by decide +kernel), by decide +kernel⟩

theorem test_witness_OfficeCardRequestsAreRefused :
    grants 0 (.issue (.slot 60000) 5) held ∧ grants 0 (.block (.slot 0)) held ∧ grants 0 (.unblock (.slot 60000)) held ∧
      grants 0 (.retire (.slot 60000)) held ∧ grants 0 (.editCard (.slot 60000) true false 2499 0) held ∧
      held.locate (.slot 0) = none ∧ held.locate (.slot 60000) = some (60000, 1) ∧
      (held.slotCard 60000).state = .active ∧ (held.slotCard 60001).state = .blank ∧
      (held.entry 1).fields.ceiling < 50001 ∧ (held.slotCard 60000).chain ≠ [] ∧ 2499 < (held.slotCard 60000).held :=
  ⟨grants_of (by decide +kernel), grants_of (by decide +kernel), grants_of (by decide +kernel),
    grants_of (by decide +kernel), grants_of (by decide +kernel), by decide +kernel⟩

theorem test_witness_OfficeCardRequestsWriteTheRecord :
    let blocked := withCard (fun c => { c with state := .blocked }) shop
    grants 0 (.issue (.slot 60001) 50000) shop ∧ (shop.slotCard 60001).state = .blank ∧
      50000 ≤ (shop.entry 1).fields.ceiling ∧ grants 0 (.block (.slot 60000)) shop ∧
      (shop.slotCard 60000).state = .active ∧ grants 0 (.unblock (.slot 60000)) blocked ∧
      (blocked.slotCard 60000).state = .blocked ∧ grants 0 (.retire (.slot 60000)) shop ∧
      (shop.slotCard 60000).chain = [] ∧ grants 0 (.editCard (.slot 60000) true true 2500 0) held ∧
      (held.slotCard 60000).held ≤ 2500 ∧ shop.locate (.slot 60001) = some (60001, 1) :=
  ⟨grants_of (by decide +kernel), by decide +kernel, by decide +kernel, grants_of (by decide +kernel), by decide +kernel,
    grants_of (by decide +kernel), by decide +kernel, grants_of (by decide +kernel), by decide +kernel,
    grants_of (by decide +kernel), by decide +kernel⟩

theorem test_witness_SetTimeWritesDeviceTime : grants 0 (.setTime 4294967295) closing :=
  grants_of (by decide +kernel)

theorem test_witness_SweepStartsTakeAnIdleUnit :
    let one := sweeping (.purge 2 none) 40 shop
    let two := one.modifySweep 1 fun _ => one.sweep 0
    grants 0 (.search 5 9 .any .any 0 true) shop ∧ grants 0 (.tally 5 9) one ∧ grants 0 (.purge 2 none) two ∧
      grants 0 (.issueRun 60001 85535 8 50000) shop ∧ grants 0 (.issueRun 60001 85536 8 50000) shop ∧
      (shop.sweep 0).running = false ∧ (one.sweep 0).running = true ∧ (one.sweep 1).running = false ∧
      (two.sweep 1).running = true ∧ shop.governing 60001 = some 1 ∧
      (shop.entry 1).fields.base + (shop.entry 1).fields.count = 85536 :=
  ⟨grants_of (by decide +kernel), grants_of (by decide +kernel), grants_of (by decide +kernel),
    grants_of (by decide +kernel), grants_of (by decide +kernel), by decide +kernel⟩

theorem test_witness_CancelSweepEndsARunningUnit :
    let s := sweeping (.tally 5 9) 7 shop
    grants 0 (.cancelSweep 0) s ∧ (s.sweep 0).running = true ∧ grants 0 (.cancelSweep 1) s ∧
      (s.sweep 1).running = false :=
  ⟨grants_of (by decide +kernel), by decide +kernel, grants_of (by decide +kernel), by decide +kernel⟩

/-- LP1 OFFICE too. -/
def twoOffices (s : State) : State :=
  s.modifyPort 1 fun port => { port with role := .office }

theorem test_witness_TheDayClosesInTwoSteps :
    grants 0 .closeDay shop ∧ shop.accounts.close = .opened ∧
      shop.clock.time < min (shop.clock.time + shop.accounts.window) 4294967295 ∧
      grants 1 .closeDay (twoOffices closing) ∧
      (met 1 .closeDay (twoOffices closing)).accounts.close = .closing 0 .zero 5029 ∧ grants 0 .confirmClose closing ∧
      (met 0 .confirmClose closing).accounts.close = .closing 0 .zero 5029 ∧
      grants 1 .confirmClose (twoOffices closing) ∧ grants 0 .confirmClose shop ∧
      grants 0 .closeDay (shop.setTime 4294967295) :=
  ⟨grants_of (by decide +kernel), by decide +kernel, by decide +kernel, grants_of (by decide +kernel), by decide +kernel,
    grants_of (by decide +kernel), by decide +kernel, grants_of (by decide +kernel), grants_of (by decide +kernel),
    grants_of (by decide +kernel)⟩

/-- A hold on trial card 0. -/
def trialHeld : State :=
  let s := onTrial shop
  { s.setTrialCard 0 { Card.trialStart with held := 100, chain := [40] } with
    holds := [(40, { giftHold with card := .trial 0, amount := 100 })]
    freeList := [41, 5, 17]
    expiry := [40] }

theorem test_witness_TrialSetWritesIdleTrialCards :
    let v : Vector Nat 4 := #v[0, 1, 2, 99999]
    grants 0 (.trialSet false v) shop ∧ grants 0 (.trialSet true v) shop ∧
      (∀ n : TrialId, ((met 0 (.trialSet true v) shop).card (.trial n)).chain = []) ∧
      grants 0 (.trialSet true v) trialHeld ∧ ((met 0 (.trialSet true v) trialHeld).card (.trial 0)).chain ≠ [] :=
  ⟨grants_of (by decide +kernel), grants_of (by decide +kernel), by decide +kernel, grants_of (by decide +kernel),
    by decide +kernel⟩

theorem test_witness_SetTimingWritesTheSettings :
    let late := (receiving 3 .length shop).modifyPort 3 fun port => { port with gap := 20 }
    grants 0 (.setTiming 3 50 .drop 60 .divided 0) shop ∧ grants 0 (.setTiming 3 50 .drop 60 .divided 1) shop ∧
      grants 0 (.setTiming 3 19 .reset 60 .tick 0) late ∧
      ((met 0 (.setTiming 3 19 .reset 60 .tick 0) late).port 3).receiver ≠ .hunt ∧
      19 < ((met 0 (.setTiming 3 19 .reset 60 .tick 0) late).port 3).gap ∧ (shop.port 3).receiver = .hunt :=
  ⟨grants_of (by decide +kernel), grants_of (by decide +kernel), grants_of (by decide +kernel), by decide +kernel⟩

theorem test_witness_PortResetEmptiesThePort :
    grants 0 (.resetPort 2) shop ∧ grants 0 (.resetPort 0) shop ∧ closing.accounts.close.owner? = some 0 :=
  ⟨grants_of (by decide +kernel), grants_of (by decide +kernel), by decide +kernel⟩

theorem test_witness_RestorePortMakesActive :
    grants 0 (.restorePort 2) (cutOff 2 shop) ∧ ((met 0 (.restorePort 2) (cutOff 2 shop)).port 2).health = .off ∧
      grants 0 (.restorePort 3) shop ∧ (shop.port 3).health = .active :=
  ⟨grants_of (by decide +kernel), by decide +kernel, grants_of (by decide +kernel), by decide +kernel⟩

theorem test_witness_ReceiverTakesEveryFrame :
    shop.resetLow = false ∧ (shop.port 2).receiver = .hunt ∧ 2 ≤ ([0x11, 0x20] : List Byte).length ∧
      (List.replicate 60 (0x20 : Byte)).length ≤ 60 := by
  decide +kernel

theorem test_witness_RequestBytesReadBack :
    Request.inRange (.setSeries 15 { giftSeries with renewLimit := 255 }) = true ∧
      Request.inRange (.load giftCode 0 9999999) = true ∧ Request.inRange (.load giftCode 0 0) = false ∧
      kindOfByte 0x63 = some .restorePort ∧ ([0x0F, 0xFF] : List Byte).length + 2 = Kind.readHold.bodyLength ∧
      requestOf .readHold [0x0F, 0xFF] = some (.readHold 4095) := by
  decide +kernel

/-! ### A sound state in the middle of its work -/

/-- The REAL hold of that state. -/
def realHold : Hold :=
  openedHold 3 (.real 60000) 2 11 2500 5000 5300 false

/-- The TRIAL hold of that state. -/
def trialHold : Hold :=
  openedHold 0 (.trial 2) 3 12 100 5000 5120 true

/-- Slot 60,000 of that state. -/
def realCard : Card :=
  { Card.blank with state := .active, value := 10000, held := 2500, chain := [0], useDay := 1, uses := 1 }

/-- Trial card 2 of that state. -/
def trialCard : Card :=
  { Card.trialStart with held := 100, chain := [1] }

/-- A REAL and a TRIAL hold open, LP3 in TRIAL, LP1 an OFFICE with a close pending, LP0 asking to end LP3's trial, and a
TALLY past the one card. -/
def busy : State :=
  { State.reset with
    clock := ⟨5000, .divided, 4, 2⟩
    series := State.reset.series.set 1 ⟨giftSeries, 1⟩
    cards := [(60000, realCard)]
    holds := [(0, realHold), (1, trialHold)]
    freeList := List.range' 2 4094
    expiry := [1, 0]
    trialCards := State.reset.trialCards.set 2 trialCard
    sweeps := State.reset.sweeps.set 0 ⟨true, .tally 60000 61000, 0, 60001, ⟨0, false, 9000, 2500, 1, 0, 0, 0, 0, 0⟩,
      ⟨1000, 0, 0⟩⟩
    accounts := { Accounts.start with
      lifetime := { Figures.zero with issued := 10000 }, close := .closing 1 .zero 5001 }
    ports := #v[{ Port.start .office with requests := [⟨7, .setPort 3 .till .normal⟩] }, .start .office, .start .till,
      { Port.start .till with mode := .trial, health := .warned, errorCount := 96 }, .start .till, .start .till] }

theorem hold_busy (i : Nat) :
    busy.hold i = if 0 = i then realHold else if 1 = i then trialHold else .fresh := rfl

theorem slotCard_busy (n : Nat) : busy.slotCard n = if 60000 = n then realCard else .blank := rfl

theorem card_trial_busy (n : TrialId) :
    busy.card (.trial n) = if n = 2 then trialCard else .trialStart := by
  revert n; decide +kernel

theorem entry_busy (e : EntryId) : busy.entry e = if e = 1 then ⟨giftSeries, 1⟩ else SeriesEntry.cleared := by
  revert e; decide +kernel

theorem isOpen_busy (i : Nat) : (busy.hold i).isOpen = true ↔ i = 0 ∨ i = 1 := by
  rw [hold_busy]
  split
  · rename_i h; simp [← h, realHold, openedHold]
  · split
    · rename_i h; simp [← h, trialHold, openedHold]
    · rename_i h0 h1; simp [Hold.fresh, Ne.symm h0, Ne.symm h1]

theorem seriesOk_busy : SeriesOk busy where
  ranges e := by
    rw [entry_busy]
    split
    · right; decide +kernel
    · left; rfl
  widths e := by
    rw [entry_busy]
    split <;> decide +kernel
  disjoint e o hne he ho := by
    rw [entry_busy] at he ho
    split at he <;> split at ho <;> simp_all [SeriesEntry.cleared]

theorem poolOk_busy : PoolOk busy where
  tables := by unfold TablesOk; decide +kernel
  freeOnce := List.nodup_range'
  free i := by
    have h : busy.freeList = List.range' 2 4094 := rfl
    have := isOpen_busy i
    rw [h, List.mem_range'_1, Config.holdRecords, ← Bool.not_eq_true, this]
    omega
  inPool i h := by
    have := (isOpen_busy i).mp h
    rw [Config.holdRecords]; omega
  expiryOnce := by decide
  expires i := by
    have h : busy.expiry = [1, 0] := rfl
    rw [h, isOpen_busy]
    simp [or_comm]
  order := by decide +kernel
  chainOnce ref := by
    cases ref with
    | real n => rw [State.card, slotCard_busy]; split <;> decide
    | trial n => rw [card_trial_busy]; split <;> decide
  chained ref i := by
    rw [isOpen_busy]
    cases ref with
    | real n =>
      rw [State.card, slotCard_busy, hold_busy]
      by_cases hn : 60000 = n
      · subst hn
        by_cases h0 : i = 0
        · subst h0; simp [realCard, realHold, openedHold]
        · by_cases h1 : i = 1
          · subst h1; simp [realCard, trialHold, openedHold]
          · simp [realCard, h0, h1]
      · rw [if_neg hn]
        by_cases h0 : i = 0
        · subst h0; simp [Card.blank, realHold, openedHold, hn]
        · by_cases h1 : i = 1
          · subst h1; simp [Card.blank, trialHold, openedHold]
          · simp [Card.blank, h0, h1]
    | trial n =>
      rw [card_trial_busy, hold_busy]
      by_cases hn : n = 2
      · subst hn
        by_cases h0 : i = 0
        · subst h0; simp [trialCard, realHold, openedHold]
        · by_cases h1 : i = 1
          · subst h1; simp [trialCard, trialHold, openedHold]
          · simp [trialCard, h0, h1]
      · rw [if_neg hn]
        by_cases h0 : i = 0
        · subst h0; simp [Card.trialStart, realHold, openedHold]
        · by_cases h1 : i = 1
          · subst h1; simp [Card.trialStart, trialHold, openedHold, Ne.symm hn]
          · simp [Card.trialStart, h0, h1]
  chainLength ref := by
    cases ref with
    | real n => rw [State.card, slotCard_busy]; split <;> decide
    | trial n => rw [card_trial_busy]; split <;> decide
  held ref := by
    cases ref with
    | real n => rw [State.card, slotCard_busy]; split <;> decide +kernel
    | trial n => rw [card_trial_busy]; split <;> decide +kernel
  covered ref := by
    cases ref with
    | real n => rw [State.card, slotCard_busy]; split <;> decide
    | trial n => rw [card_trial_busy]; split <;> decide
  bounded ref := by
    cases ref with
    | real n => rw [State.card, slotCard_busy, CardRef.highest]; split <;> decide
    | trial n => rw [card_trial_busy, CardRef.highest]; split <;> decide
  empty n := by rw [slotCard_busy]; split <;> decide
  trialActive n := by rw [card_trial_busy]; split <;> decide
  trialBases := by decide +kernel
  governed i n h hc := by
    rcases (isOpen_busy i).mp h with rfl | rfl
    · obtain rfl : 60000 = n := by simpa [hold_busy, realHold, openedHold] using hc
      decide +kernel
    · simp [hold_busy, trialHold, openedHold] at hc
  counts := by decide +kernel
  trialOwners i n h hc := by
    rcases (isOpen_busy i).mp h with rfl | rfl
    · simp [hold_busy, realHold, openedHold] at hc
    · decide +kernel
  issues u a b c d hr hp := by
    have : ∀ u, (busy.sweep u).params = .tally 60000 61000 ∨ (busy.sweep u).running = false := by decide +kernel
    rcases this u with h | h
    · rw [h] at hp; simp at hp
    · rw [h] at hr; simp at hr

theorem portsOk_busy : PortsOk busy := fun p => by
  have : ∀ p, (busy.port p).requests.length ≤ 4 ∧ busy.usedPlaces p ≤ 8 ∧ (busy.port p).notices = [] ∧
      (∀ q ∈ (busy.port p).requests, q.request.inRange = true) ∧ (busy.port p).errorCount ≤ 255 ∧
      (busy.port p).idleRun = 0 ∧ (busy.port p).health ≠ .off ∧
      (busy.port p).health = healthOfCount (busy.port p).errorCount := by decide +kernel
  obtain ⟨h1, h2, h3, h4, h5, h6, h7, h8⟩ := this p
  exact ⟨h1, h2, by rw [h3]; decide, h4, h5, by rw [h6]; decide, fun _ => ⟨h8, h6⟩, fun h => absurd h h7,
    fun h => absurd h h7⟩

theorem clockOk_busy : ClockOk busy where
  time := by decide
  divisor := by decide
  ticking h := by cases h
  divided _ := by decide

theorem dayOk_busy : DayOk busy where
  opened h := by cases h
  closing o f d h := by
    obtain ⟨rfl, rfl, rfl⟩ : 1 = o ∧ Figures.zero = f ∧ 5001 = d := by
      simpa [busy, Accounts.start] using h
    decide +kernel
  window := by decide
  day := by decide
  kept := by decide
  consecutive := by decide
  newest r h := by cases h
  office := ⟨0, rfl⟩
  normal := by decide +kernel

theorem balanceOk_busy : BalanceOk busy := by
  unfold BalanceOk; decide +kernel

theorem sweepsOk_busy : SweepsOk busy where
  cursors u h := by
    have : ∀ u, (busy.sweep u).running = true →
        (busy.sweep u).params = .tally 60000 61000 ∧ (busy.sweep u).cursor = 60001 := by decide +kernel
    obtain ⟨h1, h2⟩ := this u h
    simp [Sweep.cursorOk, h1, h2]
  tallies u a b h hp := by
    have : ∀ u, (busy.sweep u).running = true → u = 0 := by decide +kernel
    obtain rfl := this u h
    obtain ⟨rfl, rfl⟩ : 60000 = a ∧ 61000 = b := by
      have h2 : (busy.sweep 0).params = .tally 60000 61000 := rfl
      simpa [h2] using hp
    decide +kernel

theorem test_witness_SetPortWritesRoleAndMode :
    let r : Request := .setPort 3 .till .normal
    Granted busy 0 7 r (busy.startGrant 0 r) ∧ PoolOk (busy.startGrant 0 r) ∧
      ((busy.startGrant 0 r).port 3).mode = .trial ∧ ((busy.startGrant 0 r).port 1).role = .office ∧
      grants 0 (.setPort 1 .office .trial) shop ∧ grants 0 (.setPort 0 .till .normal) shop ∧
      ∀ q, q ≠ 0 → (shop.port q).role = .till := by
  refine ⟨⟨by decide +kernel, rfl, by decide +kernel⟩, ?_, by decide +kernel, by decide +kernel,
    grants_of (by decide +kernel), grants_of (by decide +kernel), by decide +kernel⟩
  have h : busy.startGrant 0 (.setPort 3 .till .normal) =
      { busy with
        lastGranted := 0
        ports := #v[.start .office, .start .office, .start .till,
          { Port.start .till with mode := .trial, health := .warned, errorCount := 96 }, .start .till,
          .start .till] } := rfl
  rw [h]
  exact { poolOk_busy with
    trialOwners := fun i n h hc => by
      rcases (isOpen_busy i).mp h with rfl | rfl
      · exact absurd (show realHold.card = .trial n from hc) (by simp [realHold, openedHold])
      · rfl }

theorem test_witness_StepKeepsTables : TablesOk busy ∧ step busy = .next busy.refclkEdge := ⟨poolOk_busy.tables, rfl⟩

theorem test_witness_StepKeepsPorts : PortsOk busy ∧ step busy = .next busy.refclkEdge := ⟨portsOk_busy, rfl⟩

theorem test_witness_StepKeepsTheDay : PortsOk busy ∧ ClockOk busy ∧ DayOk busy ∧ step busy = .next busy.refclkEdge :=
  ⟨portsOk_busy, clockOk_busy, dayOk_busy, rfl⟩

theorem test_witness_StepKeepsSeries : PortsOk busy ∧ SeriesOk busy ∧ step busy = .next busy.refclkEdge :=
  ⟨portsOk_busy, seriesOk_busy, rfl⟩

theorem test_witness_StepKeepsThePool :
    PortsOk busy ∧ SeriesOk busy ∧ PoolOk busy ∧ step busy = .next busy.refclkEdge :=
  ⟨portsOk_busy, seriesOk_busy, poolOk_busy, rfl⟩

theorem test_witness_StepKeepsTheBalance :
    PortsOk busy ∧ SeriesOk busy ∧ PoolOk busy ∧ BalanceOk busy ∧ step busy = .next busy.refclkEdge :=
  ⟨portsOk_busy, seriesOk_busy, poolOk_busy, balanceOk_busy, rfl⟩

theorem test_witness_StepKeepsTallies : PortsOk busy ∧ SweepsOk busy ∧ step busy = .next busy.refclkEdge :=
  ⟨portsOk_busy, sweepsOk_busy, rfl⟩

theorem test_witness_StepKeepsResetQuiet :
    QuietInReset (after .resetNAssert shop) ∧ (after .resetNAssert shop).resetLow = true ∧
      step (after .resetNAssert shop) = .next (after .resetNAssert shop).refclkEdge := by
  refine ⟨⟨fun _ p => ?_, fun _ => ?_, fun _ u => ?_, fun _ => ?_⟩, rfl, rfl⟩
  · revert p; decide +kernel
  · decide +kernel
  · revert u; decide +kernel
  · decide +kernel

end Sys2Proof.Tests
end

section
/-! PROOFS. An accepted RESERVE and an accepted RENEW: what the grant row answers, and what the hold written leaves. -/

namespace Sys2Proof.Machine

/-! ### A granted row -/

/-- The grant row of a request whose work ends in one state and one answer, with nothing to follow (R31). -/
theorem State.runGrant_of_only {s s1 w : State} {p : PortId} {tag : Byte} {r : Request} {a : Answer}
    (h : Granted s p tag r s1) {select : PortId → Request → Option (State → Done)} {work : State → Done}
    (hs : select p r = some work) (hw : work s1 = w.only a) : s.runGrant select = w.answering s p tag a := by
  rw [State.runGrant_of_granted h hs, hw]
  rfl

theorem exec_reserve_of_only {s s1 w : State} {p : PortId} {tag : Byte} {code : CardCode} {till : TillId} {asked : Nat}
    {flag long : Bool} {a : Answer} (h : Granted s p tag (.reserve code till asked flag long) s1)
    (hw : reserveCard p code till asked flag long s1 = w.only a) :
    exec .reserve s = .next (w.answering s p tag a) :=
  congrArg Host.Outcome.next (State.runGrant_of_only h rfl hw)

theorem exec_renew_of_only {s s1 w : State} {p : PortId} {tag : Byte} {name : HoldTag} {a : Answer}
    (h : Granted s p tag (.renew name) s1) (hw : renewTag p name s1 = w.only a) :
    exec .renew s = .next (w.answering s p tag a) :=
  congrArg Host.Outcome.next (State.runGrant_of_only h rfl hw)

/-! ### RESERVE -/

/-- A use counted on the card a moved hold stands against (R18). -/
theorem HoldMoved.countUse {s t : State} {i : Nat} {h : Hold} {ref : CardRef} {c : Card} {f : Nat → Nat}
    {free expiry : List Nat} (h1 : HoldMoved s t i h ref c f free expiry) (day : Nat) :
    HoldMoved s (t.setCard ref ((t.card ref).countUse day)) i h ref { c with useDay := day, uses := usesAfter c day } f
      free expiry := by
  rw [h1.card.written, Card.countUse_eq]
  exact h1.then_card (cardWritten_setCard t ref _)

/-- The effects of an accepted RESERVE: those of opening the hold, with the use and the last activity written on the same
card (R45, R52, R53). -/
theorem holdMoved_reserveHold (s : State) (i : Nat) (p : PortId) (t : Target) (till : TillId) (amount : Nat)
    (long : Bool) :
    HoldMoved s (s.reserveHold i p t till amount long) i
      (openedHold (s.hold i).generation t.ref p till amount s.clock.time
        (deadlineAfter s.clock.time (lifetimeOf t.rules long)) long)
      t.ref
      { s.card t.ref with
        held := (s.card t.ref).held + amount, chain := (s.card t.ref).chain ++ [i], useDay := s.accounts.day
        uses := usesAfter (s.card t.ref) s.accounts.day, last := some ⟨p, till, s.clock.time, .reserve⟩ }
      (· + 1) s.freeList.tail
      (enterExpiry (fun j => (s.hold j).deadline) i (deadlineAfter s.clock.time (lifetimeOf t.rules long))
        s.expiry) :=
  ((holdMoved_openHold s i t.ref p till amount (lifetimeOf t.rules long) long).countUse
    s.accounts.day).noteActivity p till .reserve

/-- What HELD reports as available is what was available less the amount held (R17, R53). -/
theorem available_reserveHold (s : State) (i : Nat) (p : PortId) (t : Target) (till : TillId) (amount : Nat)
    (long : Bool) :
    ((s.reserveHold i p t till amount long).card t.ref).available =
      (s.card t.ref).value - (s.card t.ref).held - amount := by
  rw [(holdMoved_reserveHold s i p t till amount long).card.written]
  exact (Nat.sub_sub _ _ _).symm

/-- A RESERVE whose seven checks pass takes the head of the free list and answers HELD (R50, R53). -/
theorem reserveCard_passed {s : State} {p : PortId} {code : CardCode} {till : TillId} {asked amount i : Nat}
    {flag long : Bool} {t : Target} {rest : List Nat} (hcheck : saleCheck p code asked flag s = .passed t amount)
    (hchain : (s.card t.ref).chain.length < 8) (hfree : s.freeList = i :: rest) :
    reserveCard p code till asked flag long s =
      (s.reserveHold i p t till amount long).only
        (.held t.ref.isTrial (holdTag i (s.hold i).generation) amount
          ((s.card t.ref).value - (s.card t.ref).held - amount)
          (deadlineAfter s.clock.time (lifetimeOf t.rules long))) := by
  have hroom : ¬Config.chainLimit ≤ (s.card t.ref).chain.length := not_le.mpr hchain
  simp only [reserveCard, hcheck, if_neg hroom, hfree, available_reserveHold]

/-- Settles O28: the seven checks pass, so the row answers HELD, and the writes are those of `holdMoved_reserveHold`. -/
theorem reserveOpensAHold : Obligations.ReserveOpensAHold := by
  intro s s1 p tag code till asked flag long t amount i rest hgrant hhealth htarget hactive huse hamount hchain hfree
  have hcheck := saleCheck_passed hhealth htarget hactive huse hamount
  have moved := holdMoved_reserveHold s1 i p t till amount long
  refine ⟨s1.reserveHold i p t till amount long, exec_reserve_of_only hgrant (reserveCard_passed hcheck hchain hfree),
    moved.hold, moved.card, moved.drifts, moved.count, ?freeList, ?expiry, moved.rest⟩
  case freeList => rw [moved.free, hfree, List.tail_cons]
  case expiry =>
    rw [moved.expiry]
    exact enteredAt_enterExpiry _ i _ s1.expiry

/-! ### RENEW -/

/-- A renewed hold is written at its index, and no other record is (R57). -/
theorem oneHold_renewHold (s : State) (i : Nat) :
    OneHold s (s.renewHold i) i
      { s.hold i with
        deadline := deadlineAfter s.clock.time (lifetimeOf (s.rulesOf (s.hold i).card) (s.hold i).long)
        renewals := (s.hold i).renewals + 1 } where
  written := (State.hold_setHold s i i _).trans (if_pos rfl)
  others j hj := (State.hold_setHold s i j _).trans (if_neg (Ne.symm hj))

/-- The renewed hold leaves its place in the expiry list and enters at the place of its new deadline (R43, R57). -/
theorem enteredAt_renewHold (s : State) (i : Nat) :
    EnteredAt (fun j => (s.hold j).deadline) i
      (deadlineAfter s.clock.time (lifetimeOf (s.rulesOf (s.hold i).card) (s.hold i).long)) (s.expiry.erase i)
      (s.renewHold i).expiry :=
  enteredAt_enterExpiry _ i _ _

/-- A renewal writes the hold pool and the expiry list only (R57). -/
theorem State.renewHold_rest (s : State) (i : Nat) :
    s.renewHold i = { s with holds := (s.renewHold i).holds, expiry := (s.renewHold i).expiry } := rfl

/-- A RENEW of a matched hold below its renew limit renews it and answers RENEWED (R56, R57). -/
theorem renewTag_matched {s : State} {p : PortId} {name : HoldTag} {i : Nat} (hmatch : s.matchTag p name = .matched i)
    (hlimit : (s.hold i).renewals < (s.rulesOf (s.hold i).card).renewLimit) :
    renewTag p name s =
      (s.renewHold i).only
        (.renewed (deadlineAfter s.clock.time (lifetimeOf (s.rulesOf (s.hold i).card) (s.hold i).long))) := by
  simp only [renewTag, hmatch, if_neg (not_le.mpr hlimit)]

/-- Settles O30: the tag matches below the renew limit of the governing entry, whose lifetimes give the deadline. -/
theorem renewMovesTheDeadline : Obligations.RenewMovesTheDeadline := by
  intro s s1 p tag i slot e hi hgrant hopen howner hcard hgoverning hlimit
  have hrules : s1.rulesOf (s1.hold i).card = (s1.entry e).fields.rules := by
    rw [hcard, State.rulesOf_real hgoverning]
  have hmatch : s1.matchTag p (holdTag i (s1.hold i).generation) = .matched i := by
    rw [State.matchTag_holdTag s1 p hi, if_pos ⟨hopen, rfl⟩, if_pos howner]
  have hbelow : (s1.hold i).renewals < (s1.rulesOf (s1.hold i).card).renewLimit := by
    rw [hrules]
    exact hlimit
  have answered := exec_renew_of_only hgrant (renewTag_matched hmatch hbelow)
  have written := oneHold_renewHold s1 i
  have entered := enteredAt_renewHold s1 i
  rw [hrules] at answered written entered
  exact ⟨s1.renewHold i, answered, written, entered, State.renewHold_rest s1 i⟩

end Sys2Proof.Machine
end

section
/-! PROOFS. A PROBE, and the accepted CAPTURE, REDEEM and LOAD: what the grant row answers, and what the card, the hold and
the accounts are left as. -/

namespace Sys2Proof.Machine

/-! ### PROBE -/

/-- The uses left that PROBE reports are the limit less today's uses, and 255 without a limit (R17, R67). -/
theorem Card.usesLeft_eq (c : Card) (limit day : Nat) :
    c.usesLeft limit day = if limit = 0 then 255 else limit - if c.useDay = day then c.uses else 0 := by
  change (if limit = 0 then 255 else if c.todaysUses day < limit then limit - c.todaysUses day else 0) =
    if limit = 0 then 255 else limit - c.todaysUses day
  split
  case isTrue => rfl
  case isFalse =>
    split
    case isTrue => rfl
    case isFalse hused => exact (Nat.sub_eq_zero_of_le (not_lt.mp hused)).symm

/-- A PROBE whose code reaches no card answers UNKNOWN-CARD (R66). -/
theorem probeCard_unknown {s : State} {p : PortId} {code : CardCode} (htarget : s.target p code = none) :
    probeCard p code s = s.only (.plain .unknownCard) := by
  simp only [probeCard, htarget]

/-- A PROBE whose code reaches a card answers its five figures (R67). -/
theorem probeCard_reached {s : State} {p : PortId} {code : CardCode} {t : Target}
    (htarget : s.target p code = some t) :
    probeCard p code s =
      s.only (.probed t.ref.isTrial (s.card t.ref).state (s.card t.ref).value
        ((s.card t.ref).value - (s.card t.ref).held) (s.card t.ref).chain.length
        (if t.rules.useLimit = 0 then 255
          else t.rules.useLimit - if (s.card t.ref).useDay = s.accounts.day then (s.card t.ref).uses else 0)) := by
  simp only [probeCard, htarget, Card.usesLeft_eq, Card.available]

/-- Settles O26: PROBE's work leaves the state it meets, with one answer when the code reaches no card and one when it
does. -/
theorem probeReportsTheCard : Obligations.ProbeReportsTheCard := by
  intro s s1 p tag code hgrant
  have answered {a : Answer} (hwork : probeCard p code s1 = s1.only a) :
      exec .probe s = .next (s1.answering s p tag a) :=
    congrArg Host.Outcome.next (State.runGrant_of_only hgrant rfl hwork)
  exact ⟨fun htarget => answered (probeCard_unknown htarget), fun t htarget => answered (probeCard_reached htarget)⟩

/-! ### CAPTURE -/

/-- A movement reported after a hold was moved reaches the accounts and nothing else (R64, R123, R125). -/
theorem HoldMoved.report {s t : State} {i : Nat} {h : Hold} {ref : CardRef} {c : Card} {f : Nat → Nat}
    {free expiry : List Nat} (moved : HoldMoved s t i h ref c f free expiry) (m : Movement) :
    OneHold s (t.report ref m) i h ∧ OneCard s (t.report ref m) ref c ∧ DriftsFollow s (t.report ref m) ref ∧
      CountMoves s (t.report ref m) ref f ∧ (t.report ref m).freeList = free ∧ (t.report ref m).expiry = expiry ∧
      (t.report ref m).accounts = afterMovement s.accounts ref m.figures ∧
      t.report ref m = { s with
        cards := (t.report ref m).cards, trialCards := (t.report ref m).trialCards, sweeps := (t.report ref m).sweeps,
        holds := (t.report ref m).holds, freeList := (t.report ref m).freeList, expiry := (t.report ref m).expiry,
        series := (t.report ref m).series, accounts := (t.report ref m).accounts } := by
  have haccounts : t.accounts = s.accounts := by rw [moved.rest]
  rw [State.report_accounts, haccounts]
  have hcard : ∀ q, State.card { t with accounts := afterMovement s.accounts ref m.figures } q = t.card q := by
    rintro (slot | n) <;> rfl
  refine ⟨⟨moved.hold.written, moved.hold.others⟩, ⟨(hcard ref).trans moved.card.written, fun q hq => ?others⟩,
    fun u => ?drift, moved.count, moved.free, moved.expiry, rfl, ?rest⟩
  case others => exact (hcard q).trans (moved.card.others q hq)
  case drift =>
    rw [hcard]
    exact moved.drifts u
  case rest => rw [moved.rest]

/-- The writes of an accepted CAPTURE before its report: those of freeing the hold, with the final amount off the value and
the last activity on the same card (R69, R71). -/
theorem holdMoved_captureWrites (s : State) (i : Nat) (p : PortId) (final : Nat) (till : TillId) :
    let ref := (s.hold i).card
    let freed := (s.freeHold i).card ref
    HoldMoved s
      (((s.freeHold i).setCard ref { freed with value := freed.value - final }).noteActivity ref p till .capture) i
      { s.hold i with isOpen := false, generation := (s.hold i).generation + 1 } ref
      { s.card ref with
        value := (s.card ref).value - final, held := (s.card ref).held - (s.hold i).amount
        chain := (s.card ref).chain.erase i, last := some ⟨p, till, s.clock.time, .capture⟩ }
      (· - 1) (s.freeList ++ [i]) (s.expiry.erase i) := by
  intro ref freed
  have moved := holdMoved_freeHold s i
  have hfreed : freed = _ := moved.card.written
  rw [hfreed]
  exact (moved.then_card (cardWritten_setCard (s.freeHold i) ref _)).noteActivity p till .capture

/-- A CAPTURE of a matched hold whose excess, if any, is available answers CAPTURED with the value left (R69, R70,
R72). -/
theorem captureTag_matched {s : State} {p : PortId} {name : HoldTag} {i final : Nat}
    (hmatch : s.matchTag p name = .matched i)
    (hcover : final ≤ (s.hold i).amount ∨
      final - (s.hold i).amount ≤ (s.card (s.hold i).card).value - (s.card (s.hold i).card).held) (till : TillId) :
    captureTag p name final till s =
      (s.captureHold i p final till).only (.captured final ((s.card (s.hold i).card).value - final)) := by
  have hfunds : ¬((s.hold i).amount < final ∧
      (s.card (s.hold i).card).available < final - (s.hold i).amount) := by
    rintro ⟨habove, hshort⟩
    exact hcover.elim (not_le.mpr habove) (not_le.mpr hshort)
  obtain ⟨-, card, -⟩ := (holdMoved_captureWrites s i p final till).report (.capture final)
  have hvalue : ((s.captureHold i p final till).card (s.hold i).card).value =
      (s.card (s.hold i).card).value - final := congrArg Card.value card.written
  simp only [captureTag, hmatch, if_neg hfunds, hvalue]

/-- Settles O31: the tag matches and the excess is available, so the row answers CAPTURED, and the writes are those of
`holdMoved_captureWrites` with the movement reported. -/
theorem captureCompletesASale : Obligations.CaptureCompletesASale := by
  intro s s1 p tag i final till hi hgrant hopen howner h c hcover
  have hmatch : s1.matchTag p (holdTag i h.generation) = .matched i := by
    rw [State.matchTag_holdTag s1 p hi, if_pos ⟨hopen, rfl⟩, if_pos howner]
  have hwork := captureTag_matched hmatch hcover till
  exact ⟨s1.captureHold i p final till, congrArg Host.Outcome.next (State.runGrant_of_only hgrant rfl hwork),
    (holdMoved_captureWrites s1 i p final till).report (.capture final)⟩

/-! ### REDEEM -/

/-- The effects of an accepted REDEEM: one card written, with its movement reported (R77). -/
theorem redeemCard_effects (s : State) (p : PortId) (ref : CardRef) (till : TillId) (amount : Nat) :
    let w := s.redeemCard p ref till amount
    OneCard s w ref
        { s.card ref with
          value := (s.card ref).value - amount, useDay := s.accounts.day
          uses := usesAfter (s.card ref) s.accounts.day, last := some ⟨p, till, s.clock.time, .redeem⟩ } ∧
      DriftsFollow s w ref ∧ w.accounts = afterMovement s.accounts ref (Movement.capture amount).figures ∧
      w = { s with cards := w.cards, trialCards := w.trialCards, sweeps := w.sweeps, accounts := w.accounts } := by
  have written := ((cardWritten_setCard s ref
    ({ s.card ref with value := (s.card ref).value - amount }.countUse s.accounts.day)).noteActivity p till
      .redeem).report (.capture amount)
  rw [Card.countUse_eq] at written
  rw [State.redeemCard, Card.countUse_eq]
  exact written

/-- A REDEEM whose five checks pass takes the amount found and answers REDEEMED (R75, R77). -/
theorem redeemCode_passed {s : State} {p : PortId} {code : CardCode} {till : TillId} {asked amount : Nat} {flag : Bool}
    {t : Target} (hcheck : saleCheck p code asked flag s = .passed t amount) :
    redeemCode p code till asked flag s =
      (s.redeemCard p t.ref till amount).only
        (.redeemed t.ref.isTrial amount ((s.card t.ref).value - amount)) := by
  obtain ⟨card, -⟩ := redeemCard_effects s p t.ref till amount
  simp only [redeemCode, hcheck, card.written]

/-- Settles O33: the five checks pass, so the row answers REDEEMED, and the writes are those of `redeemCard_effects`. -/
theorem redeemTakesValue : Obligations.RedeemTakesValue := by
  intro s s1 p tag code till asked flag t amount hgrant hhealth htarget hactive huse hamount
  have hwork := redeemCode_passed (till := till) (saleCheck_passed hhealth htarget hactive huse hamount)
  exact ⟨s1.redeemCard p t.ref till amount, congrArg Host.Outcome.next (State.runGrant_of_only hgrant rfl hwork),
    redeemCard_effects s1 p t.ref till amount⟩

/-! ### LOAD -/

/-- The effects of an accepted LOAD: one card written, with its movement reported (R80). -/
theorem loadCard_effects (s : State) (p : PortId) (ref : CardRef) (till : TillId) (amount : Nat) :
    let w := s.loadCard p ref till amount
    OneCard s w ref
        { s.card ref with
          value := (s.card ref).value + amount, last := some ⟨p, till, s.clock.time, .load⟩ } ∧
      DriftsFollow s w ref ∧ w.accounts = afterMovement s.accounts ref (Movement.load amount).figures ∧
      w = { s with cards := w.cards, trialCards := w.trialCards, sweeps := w.sweeps, accounts := w.accounts } :=
  ((cardWritten_setCard s ref _).noteActivity p till .load).report (.load amount)

/-- A LOAD on an ACTIVE card below its ceiling applies the amount asked, cut to the room left, and answers LOADED
(R78 to R80). -/
theorem loadCode_accepted {s : State} {p : PortId} {code : CardCode} {t : Target} (hhealth : (s.port p).health ≠ .muted)
    (htarget : s.target p code = some t) (hactive : (s.card t.ref).state = .active)
    (hroom : (s.card t.ref).value < t.rules.ceiling) (till : TillId) (asked : Nat) :
    let applied := min asked (t.rules.ceiling - (s.card t.ref).value)
    loadCode p code till asked s =
      (s.loadCard p t.ref till applied).only
        (.loaded t.ref.isTrial (decide (applied < asked)) applied ((s.card t.ref).value + applied)) := by
  intro applied
  obtain ⟨card, -⟩ := loadCard_effects s p t.ref till applied
  have hrefusal : (s.card t.ref).state.refusal = none := by rw [hactive]; rfl
  have hceiling : ¬t.rules.ceiling ≤ (s.card t.ref).value := not_le.mpr hroom
  simp only [loadCode, if_neg hhealth, htarget, hrefusal, if_neg hceiling]
  rw [card.written]

/-- Settles O34: the four checks pass, so the row answers LOADED, and the writes are those of `loadCard_effects`. -/
theorem loadAddsValue : Obligations.LoadAddsValue := by
  intro s s1 p tag code till asked t hgrant hhealth htarget hactive hroom c applied
  have hwork := loadCode_accepted hhealth htarget hactive hroom till asked
  exact ⟨s1.loadCard p t.ref till applied, congrArg Host.Outcome.next (State.runGrant_of_only hgrant rfl hwork),
    loadCard_effects s1 p t.ref till applied⟩

end Sys2Proof.Machine
end

section
/-! PROOFS. A lapse: what the grant of the expiry unit leaves of the hold, its card and its owner port. -/

namespace Sys2Proof.Machine

/-- A grant of the expiry unit lapses the head of the expiry list (R94, R96). -/
theorem exec_lapse_of_head {s : State} {i : Nat} {rest : List Nat} (hgrant : s.nextGrant = some .expiry)
    (hhead : s.expiry = i :: rest) : exec .lapse s = .next ((s.grantTo .expiry).lapse i) := by
  change execLapse s = _
  simp only [execLapse, hgrant, hhead]

/-- A notice reaches the queue of its port and no other port (R171). -/
theorem onePort_notify (s : State) (p : PortId) (n : Notice) :
    OnePort s (s.notify p n) p { s.port p with notices := pushNotice n (s.port p).notices } :=
  onePort_modifyPort s p _

/-- A notice queued after a hold was moved reaches the ports and nothing else (R95, R171). -/
theorem HoldMoved.notify {s t : State} {i : Nat} {h : Hold} {ref : CardRef} {c : Card} {f : Nat → Nat}
    {free expiry : List Nat} (moved : HoldMoved s t i h ref c f free expiry) (p : PortId) (n : Notice) :
    let w := t.notify p n
    OneHold s w i h ∧ OneCard s w ref c ∧ DriftsFollow s w ref ∧ CountMoves s w ref f ∧ w.freeList = free ∧
      w.expiry = expiry ∧ OnePort s w p { s.port p with notices := pushNotice n (s.port p).notices } ∧
      w = { s with
        cards := w.cards, trialCards := w.trialCards, sweeps := w.sweeps, holds := w.holds, freeList := w.freeList
        expiry := w.expiry, series := w.series, ports := w.ports } := by
  intro w
  have hcard : ∀ q, w.card q = t.card q := by
    rintro (slot | trial) <;> rfl
  have hport : ∀ q, t.port q = s.port q := by
    intro q
    rw [moved.rest]
    rfl
  have queued : OnePort t w p { t.port p with notices := pushNotice n (t.port p).notices } := onePort_notify t p n
  rw [hport] at queued
  refine ⟨⟨moved.hold.written, moved.hold.others⟩, ⟨(hcard ref).trans moved.card.written, ?others⟩, ?drifts,
    moved.count, moved.free, moved.expiry, ⟨queued.written, ?ports⟩, ?rest⟩
  case others => exact fun q hq => (hcard q).trans (moved.card.others q hq)
  case drifts =>
    intro u
    rw [hcard]
    exact moved.drifts u
  case ports => exact fun q hq => (queued.others q hq).trans (hport q)
  case rest => exact congrArg (fun v : State => { v with ports := w.ports }) moved.rest

/-- The writes of a lapse before its notice: those of freeing the hold, with the last activity on the same card
(R94). -/
theorem holdMoved_lapseWrites (s : State) (i : Nat) :
    let h := s.hold i
    HoldMoved s ((s.freeHold i).noteActivity h.card h.owner h.till .expiry) i
      { h with isOpen := false, generation := h.generation + 1 } h.card
      { s.card h.card with
        held := (s.card h.card).held - h.amount, chain := (s.card h.card).chain.erase i
        last := some ⟨h.owner, h.till, s.clock.time, .expiry⟩ }
      (· - 1) (s.freeList ++ [i]) (s.expiry.erase i) :=
  (holdMoved_freeHold s i).noteActivity _ _ .expiry

/-- Settles O12: the grant lapses the head, and its writes are those of `holdMoved_lapseWrites` on the state whose ring
position has moved, a field no record is read from, with HOLD-EXPIRED queued to the owner port. -/
theorem lapseFreesTheHead : Obligations.LapseFreesTheHead := by
  intro s i rest hgrant hhead h c
  have granted := exec_lapse_of_head hgrant hhead
  obtain ⟨hold, card, drifts, count, free, expiry, queued, frame⟩ :=
    (holdMoved_lapseWrites (s.grantTo .expiry) i).notify h.owner ((s.grantTo .expiry).expiredNotice i)
  rw [State.grantTo_expiry, hhead, List.erase_cons_head] at expiry
  exact ⟨(s.grantTo .expiry).lapse i, granted, ⟨hold.written, hold.others⟩, ⟨card.written, card.others⟩, drifts, count,
    free, expiry, ⟨queued.written, queued.others⟩, frame⟩

end Sys2Proof.Machine
end

section
/-! PROOFS. The balance of R124: the total of a table after each of its operations, and what a write of one card and a
reported movement do to the two sides of the balance. -/

namespace Sys2Proof.Machine

/-! ### The total of a table -/

/-- The sum of a figure over the listed records of a table, modulo 2^64. -/
def Table.total {α : Type} (f : α → Word64) (t : Table α) : Word64 :=
  (t.map fun e => f e.2).sum

@[simp] theorem Table.total_nil {α : Type} (f : α → Word64) : Table.total f [] = 0 := rfl

@[simp] theorem Table.total_cons {α : Type} (f : α → Word64) (e : Nat × α) (t : Table α) :
    Table.total f (e :: t) = f e.2 + Table.total f t := by
  simp [Table.total]

theorem Table.total_insert {α : Type} (f : α → Word64) (n : Nat) (v : α) (t : Table α) :
    Table.total f (Table.insert n v t) = f v + Table.total f t := by
  induction t with
  | nil => rfl
  | cons e rest ih =>
    simp only [Table.insert]
    split
    case isTrue => simp
    case isFalse =>
      simp only [Table.total_cons, ih]
      ring

/-- The record that leaves a table takes its figure out of the total; a record the table does not list has none. -/
theorem Table.total_drop {α : Type} {d : α} {f : α → Word64} (hd : f d = 0) (n : Nat) {t : Table α}
    (hkeys : (t.map Prod.fst).Pairwise (· < ·)) :
    Table.total f (Table.drop n t) + f (Table.look d t n) = Table.total f t := by
  induction t with
  | nil => simp [Table.drop, Table.look, hd]
  | cons e rest ih =>
    obtain ⟨k, v⟩ := e
    simp only [List.map_cons, List.pairwise_cons] at hkeys
    by_cases hk : k = n
    · subst hk
      have hrest : ∀ e ∈ rest, e.1 ≠ k := fun e he => (hkeys.1 e.1 (List.mem_map_of_mem he)).ne'
      have hdrop : Table.drop k ((k, v) :: rest) = rest := by
        simpa [Table.drop] using hrest
      rw [hdrop, Table.look, if_pos rfl, Table.total_cons, add_comm]
    · have hdrop : Table.drop n ((k, v) :: rest) = (k, v) :: Table.drop n rest := by
        simp [Table.drop, hk]
      rw [hdrop, Table.look, if_neg hk, Table.total_cons, Table.total_cons, ← ih hkeys.2, add_assoc]

/-- A write of one record moves the total by the change of its figure. -/
theorem Table.total_put {α : Type} [DecidableEq α] {d : α} {f : α → Word64} (hd : f d = 0) (n : Nat) (v : α)
    {t : Table α} (hkeys : (t.map Prod.fst).Pairwise (· < ·)) :
    Table.total f (Table.put d n v t) + f (Table.look d t n) = Table.total f t + f v := by
  rw [← Table.total_drop hd n hkeys, Table.put]
  split
  case isTrue hv => rw [hv, hd, add_zero]
  case isFalse =>
    rw [Table.total_insert]
    ring

/-- Writing every record without changing its figure leaves the total. -/
theorem Table.total_mapRecords {α : Type} [DecidableEq α] {d : α} {f : α → Word64} (hd : f d = 0) {g : α → α}
    (hg : ∀ x, f (g x) = f x) (t : Table α) : Table.total f (Table.mapRecords d g t) = Table.total f t := by
  induction t with
  | nil => rfl
  | cons e rest ih =>
    simp only [Table.mapRecords, List.map_cons] at ih ⊢
    rw [Table.total_cons, ← ih]
    by_cases hv : g e.2 = d
    · rw [List.filter_cons_of_neg (by simpa using hv), ← hg e.2, hv, hd, zero_add]
    · rw [List.filter_cons_of_pos (by simpa using hv), Table.total_cons, hg]

/-! ### The counters' side of the balance -/

/-- What the counters say the cards hold: issued + loaded - captured - written-off + adjusted (R124). -/
def Figures.net (f : Figures) : Word64 :=
  f.issued + f.loaded - f.captured - f.writtenOff + f.adjusted

theorem balanceOk_iff (s : State) : BalanceOk s ↔ s.totalValue = s.accounts.lifetime.net :=
  Iff.rfl

@[simp] theorem Figures.net_zero : Figures.zero.net = 0 := rfl

theorem Figures.net_add (f g : Figures) : (f.add g).net = f.net + g.net := by
  simp only [Figures.net, Figures.add]
  ring

@[simp] theorem Movement.net_issue (v : Nat) : (Movement.issue v).figures.net = BitVec.ofNat 64 v := by
  simp [Movement.figures, Figures.net, Figures.zero]

@[simp] theorem Movement.net_load (v : Nat) : (Movement.load v).figures.net = BitVec.ofNat 64 v := by
  simp [Movement.figures, Figures.net, Figures.zero]

@[simp] theorem Movement.net_capture (v : Nat) : (Movement.capture v).figures.net = -BitVec.ofNat 64 v := by
  simp [Movement.figures, Figures.net, Figures.zero]

@[simp] theorem Movement.net_writeOff (v : Nat) : (Movement.writeOff v).figures.net = -BitVec.ofNat 64 v := by
  simp [Movement.figures, Figures.net, Figures.zero]

@[simp] theorem Movement.net_adjust (old new : Nat) :
    (Movement.adjust old new).figures.net = BitVec.ofNat 64 new - BitVec.ofNat 64 old := by
  simp [Movement.figures, Figures.net, Figures.zero]

/-- A movement reaches the lifetime counters in every close state, unless it is on a trial card (R64, R123). -/
theorem lifetime_afterMovement (a : Accounts) (ref : CardRef) (f : Figures) :
    (afterMovement a ref f).lifetime = if ref.isTrial then a.lifetime else a.lifetime.add f := by
  cases ref with
  | trial t => rfl
  | real slot => rcases h : a.close <;> simp [afterMovement, h, CardRef.isTrial]

/-! ### The cards' side of the balance -/

/-- The value of a card modulo 2^64, as the balance adds it up. -/
def Card.worth (c : Card) : Word64 :=
  BitVec.ofNat 64 c.value

theorem totalValue_eq_total (s : State) : s.totalValue = Table.total Card.worth s.cards :=
  rfl

/-- A write of one card record moves the total by the change of its value. -/
theorem totalValue_of_slot_written {s w : State} {slot : Nat} {c : Card} (hs : TablesOk s) (hw : TablesOk w)
    (one : OneCard s w (.real slot) c) : w.totalValue + (s.slotCard slot).worth = s.totalValue + c.worth := by
  have hcards : w.cards = Table.put Card.blank slot c s.cards := by
    refine Table.ext_of_look hw.1 (Table.wf_put slot c hs.1) fun n => ?_
    rw [Table.look_put]
    split
    case isTrue hn => exact hn ▸ one.written
    case isFalse hn => exact one.others (.real n) fun h => hn (CardRef.real.inj h).symm
  rw [totalValue_eq_total, hcards]
  exact Table.total_put (d := Card.blank) (f := Card.worth) rfl slot c hs.1.1

/-- A write of a trial card leaves the total (R142). -/
theorem totalValue_of_trial_written {s w : State} {t : TrialId} {c : Card} (hs : TablesOk s) (hw : TablesOk w)
    (one : OneCard s w (.trial t) c) : w.totalValue = s.totalValue := by
  have hcards : w.cards = s.cards :=
    Table.ext_of_look hw.1 hs.1 fun n => one.others (.real n) (by simp)
  rw [totalValue_eq_total, hcards, totalValue_eq_total]

/-- The balance stands when a card's value moves by what the counters take (R123, R124). -/
theorem BalanceOk.of_movement {s w : State} {ref : CardRef} {c : Card} {f : Figures} (h : BalanceOk s)
    (hs : TablesOk s) (hw : TablesOk w) (one : OneCard s w ref c) (hvalue : c.worth = (s.card ref).worth + f.net)
    (hcounters : w.accounts.lifetime = (afterMovement s.accounts ref f).lifetime) : BalanceOk w := by
  rw [balanceOk_iff] at h ⊢
  rw [hcounters, lifetime_afterMovement]
  cases ref with
  | trial t => exact (totalValue_of_trial_written hs hw one).trans h
  | real slot =>
    have htotal := totalValue_of_slot_written hs hw one
    have hcard : s.card (.real slot) = s.slotCard slot := rfl
    rw [hvalue, hcard] at htotal
    change _ = (s.accounts.lifetime.add f).net
    rw [Figures.net_add, ← h]
    linear_combination htotal

/-- The balance stands when a card is written with its value kept and nothing is reported. -/
theorem BalanceOk.of_same_value {s w : State} {ref : CardRef} {c : Card} (h : BalanceOk s) (hs : TablesOk s)
    (hw : TablesOk w) (one : OneCard s w ref c) (hvalue : c.value = (s.card ref).value)
    (hcounters : w.accounts.lifetime = s.accounts.lifetime) : BalanceOk w := by
  refine h.of_movement (f := .zero) hs hw one ?_ ?_
  · rw [Card.worth, hvalue, Figures.net_zero, add_zero, Card.worth]
  · have hzero : s.accounts.lifetime.add .zero = s.accounts.lifetime := by
      simp [Figures.add, Figures.zero]
    rw [lifetime_afterMovement, hzero, ite_self, hcounters]

/-- A sale that takes no more than the value lowers the value's worth by what it takes. -/
theorem ofNat_sub_of_le {value taken : Nat} (h : taken ≤ value) :
    BitVec.ofNat 64 (value - taken) = BitVec.ofNat 64 value + -BitVec.ofNat 64 taken := by
  obtain ⟨left, rfl⟩ := Nat.exists_eq_add_of_le h
  rw [Nat.add_sub_cancel_left, BitVec.ofNat_add]
  ring

end Sys2Proof.Machine
end

section
/-! PROOFS. What every step keeps so that no sale takes more than its card holds: the chains, the held amounts and the two
lists of the pool, as a law of one card and a law of the lists, and what a write of one card, a hold opened and a hold
freed do to them. -/

namespace Sys2Proof.Machine

/-! ### The canonical tables -/

theorem TablesOk.setCard {s : State} (h : TablesOk s) (ref : CardRef) (c : Card) : TablesOk (s.setCard ref c) := by
  cases ref with
  | real slot => exact ⟨Table.wf_put slot c h.1, h.2⟩
  | trial t => exact h

theorem TablesOk.setHold {s : State} (h : TablesOk s) (i : Nat) (k : Hold) : TablesOk (s.setHold i k) :=
  ⟨h.1, Table.wf_put i k h.2⟩

theorem TablesOk.noteActivity {s : State} (h : TablesOk s) (ref : CardRef) (p : PortId) (till : TillId)
    (kind : ActivityKind) : TablesOk (s.noteActivity ref p till kind) :=
  h.setCard ref _

theorem TablesOk.report {s : State} (h : TablesOk s) (ref : CardRef) (m : Movement) : TablesOk (s.report ref m) := by
  rw [State.report_accounts]
  exact h

theorem TablesOk.countHold {s : State} (h : TablesOk s) (ref : CardRef) (f : Nat → Nat) :
    TablesOk (s.countHold ref f) := by
  rw [State.countHold_rest]
  exact h

theorem TablesOk.setLists {s : State} (h : TablesOk s) (free expiry : List Nat) :
    TablesOk { s with freeList := free, expiry := expiry } :=
  h

theorem TablesOk.freeHold {s : State} (h : TablesOk s) (i : Nat) : TablesOk (s.freeHold i) :=
  (((h.setCard _ _).setHold i _).setLists _ _).countHold _ _

theorem TablesOk.openHold {s : State} (h : TablesOk s) (i : Nat) (ref : CardRef) (p : PortId) (till : TillId)
    (amount lifetime : Nat) (long : Bool) : TablesOk (s.openHold i ref p till amount lifetime long) :=
  (((h.setCard _ _).setHold i _).setLists _ _).countHold _ _

/-! ### The law of one card -/

/-- A card against the hold records: its chain names its open holds, once each, held is the sum of their amounts and is
covered by the value, and a BLANK record holds no value (R16, R20, R42). -/
structure CardSound (hold : Nat → Hold) (ref : CardRef) (c : Card) : Prop where
  chainOnce : c.chain.Nodup
  chained : ∀ i, i ∈ c.chain ↔ (hold i).isOpen = true ∧ (hold i).card = ref
  held : c.held = (c.chain.map fun i => (hold i).amount).sum
  covered : c.held ≤ c.value
  blank : ref.isTrial = false → c.state = .blank → c.value = 0

/-- An open hold is covered by what its card holds. -/
theorem CardSound.amount_le_held {hold : Nat → Hold} {i : Nat} {c : Card} (h : CardSound hold (hold i).card c)
    (hopen : (hold i).isOpen = true) : (hold i).amount ≤ c.held := by
  have hchain : i ∈ c.chain := (h.chained i).mpr ⟨hopen, rfl⟩
  have hsum := List.sum_map_erase (fun j => (hold j).amount) hchain
  have hheld := h.held
  omega

theorem CardSound.held_eq_zero {hold : Nat → Hold} {ref : CardRef} {c : Card} (h : CardSound hold ref c)
    (hchain : c.chain = []) : c.held = 0 := by
  rw [h.held, hchain]
  rfl

/-- A write that leaves the holds of a card keeps its law when the new value covers them. -/
theorem CardSound.of_same_holds {hold : Nat → Hold} {ref : CardRef} {c d : Card} (h : CardSound hold ref c)
    (hchain : d.chain = c.chain) (hheld : d.held = c.held) (hcovered : c.held ≤ d.value)
    (hblank : ref.isTrial = false → d.state = .blank → d.value = 0) : CardSound hold ref d where
  chainOnce := hchain ▸ h.chainOnce
  chained i := by rw [hchain, h.chained]
  held := by rw [hchain, hheld, h.held]
  covered := hheld ▸ hcovered
  blank := hblank

/-- Writes of state but to BLANK, uses and last activity leave the law of a card. -/
theorem CardSound.of_same_value {hold : Nat → Hold} {ref : CardRef} {c d : Card} (h : CardSound hold ref c)
    (hchain : d.chain = c.chain) (hheld : d.held = c.held) (hvalue : d.value = c.value)
    (hstate : d.state = .blank → c.state = .blank) : CardSound hold ref d :=
  h.of_same_holds hchain hheld (hvalue ▸ h.covered) fun href hblank => hvalue ▸ h.blank href (hstate hblank)

/-- The law of a card reads of a hold whether it is open, its card and its amount. -/
theorem CardSound.of_same_amounts {hold hold' : Nat → Hold} {ref : CardRef} {c : Card} (h : CardSound hold ref c)
    (hopen : ∀ i, (hold' i).isOpen = (hold i).isOpen) (hcard : ∀ i, (hold' i).card = (hold i).card)
    (hamount : ∀ i, (hold' i).amount = (hold i).amount) : CardSound hold' ref c where
  chainOnce := h.chainOnce
  chained i := by rw [hopen, hcard, h.chained]
  held := by simp only [hamount, h.held]
  covered := h.covered
  blank := h.blank

/-- The amounts of a chain that does not name the written hold add up as before. -/
theorem OneHold.sum_amounts {s w : State} {i : Nat} {k : Hold} (one : OneHold s w i k) {chain : List Nat}
    (hi : i ∉ chain) : (chain.map fun j => (w.hold j).amount).sum = (chain.map fun j => (s.hold j).amount).sum := by
  have hsame : ∀ j ∈ chain, (w.hold j).amount = (s.hold j).amount := fun j hj =>
    congrArg Hold.amount (one.others j fun e => hi (e ▸ hj))
  rw [List.map_congr_left hsame]

/-- A hold written from and to another card, or from and to FREE, leaves the law of a card. -/
theorem CardSound.of_other_hold {s w : State} {i : Nat} {k : Hold} {ref : CardRef} {c : Card}
    (h : CardSound s.hold ref c) (one : OneHold s w i k) (hbefore : (s.hold i).isOpen = true → (s.hold i).card ≠ ref)
    (hafter : k.isOpen = true → k.card ≠ ref) : CardSound w.hold ref c := by
  have hi : i ∉ c.chain := fun hmem =>
    have ⟨hopen, hcard⟩ := (h.chained i).mp hmem
    hbefore hopen hcard
  refine ⟨h.chainOnce, fun j => ?_, ?_, h.covered, h.blank⟩
  · by_cases hj : j = i
    · subst hj
      rw [one.written]
      exact ⟨fun hmem => absurd hmem hi, fun ⟨hopen, hcard⟩ => absurd hcard (hafter hopen)⟩
    · rw [one.others j hj, h.chained]
  · rw [one.sum_amounts hi, h.held]

/-- The card of a freed hold: the hold off its chain and out of held (R46). -/
theorem CardSound.freed {s w : State} {i : Nat} {k : Hold} {c : Card} (h : CardSound s.hold (s.hold i).card c)
    (hopen : (s.hold i).isOpen = true) (one : OneHold s w i k) (hk : k.isOpen = false) :
    CardSound w.hold (s.hold i).card { c with chain := c.chain.erase i, held := c.held - (s.hold i).amount } := by
  have hmem : i ∈ c.chain := (h.chained i).mpr ⟨hopen, rfl⟩
  have hout : i ∉ c.chain.erase i := h.chainOnce.not_mem_erase
  refine ⟨h.chainOnce.erase i, fun j => ?_, ?_, (Nat.sub_le _ _).trans h.covered, h.blank⟩
  · by_cases hj : j = i
    · subst hj
      simp [one.written, hk, hout]
    · rw [one.others j hj, List.mem_erase_of_ne hj, h.chained]
  · have hsum := List.sum_map_erase (fun j => (s.hold j).amount) hmem
    have hheld := h.held
    simp only [one.sum_amounts hout]
    omega

/-- The card of an opened hold: the hold at the end of its chain and in held, when the value covers it (R45). -/
theorem CardSound.opened {s w : State} {i : Nat} {k : Hold} {ref : CardRef} {c : Card} (h : CardSound s.hold ref c)
    (hfree : (s.hold i).isOpen = false) (one : OneHold s w i k) (hk : k.isOpen = true) (hcard : k.card = ref)
    (hroom : c.held + k.amount ≤ c.value) :
    CardSound w.hold ref { c with chain := c.chain ++ [i], held := c.held + k.amount } := by
  have hout : i ∉ c.chain := fun hmem => by simpa [hfree] using ((h.chained i).mp hmem).1
  refine ⟨?_, fun j => ?_, ?_, hroom, h.blank⟩
  · exact List.nodup_append.mpr ⟨h.chainOnce, List.nodup_singleton i, by
      intro a ha b hb
      rw [List.mem_singleton.mp hb]
      exact fun e => hout (e ▸ ha)⟩
  · by_cases hj : j = i
    · subst hj
      simp [one.written, hk, hcard]
    · rw [one.others j hj, ← h.chained]
      simp [hj]
  · rw [List.map_append, List.sum_append, one.sum_amounts hout, h.held]
    simp [one.written]

/-! ### The law of the two lists -/

/-- The free list names FREE holds and the expiry list open ones, once each (R41, R43). -/
structure ListsSound (hold : Nat → Hold) (free expiry : List Nat) : Prop where
  freeOnce : free.Nodup
  free : ∀ i ∈ free, (hold i).isOpen = false
  expiryOnce : expiry.Nodup
  expires : ∀ i ∈ expiry, (hold i).isOpen = true

/-- Entering an index into the expiry list adds it once (R43). -/
theorem enterExpiry_perm (deadlineOf : Nat → Nat) (i d : Nat) (l : List Nat) :
    (enterExpiry deadlineOf i d l).Perm (i :: l) := by
  obtain ⟨front, rear, hbefore, hafter, -⟩ := enteredAt_enterExpiry deadlineOf i d l
  rw [hafter, hbefore]
  exact List.perm_middle

theorem ListsSound.freed {s w : State} {i : Nat} {k : Hold} {free expiry : List Nat}
    (h : ListsSound s.hold free expiry) (hopen : (s.hold i).isOpen = true) (one : OneHold s w i k)
    (hk : k.isOpen = false) : ListsSound w.hold (free ++ [i]) (expiry.erase i) := by
  have hout : i ∉ free := fun hmem => by simpa [hopen] using h.free i hmem
  refine ⟨?_, fun j hj => ?_, h.expiryOnce.erase i, fun j hj => ?_⟩
  · exact (List.perm_append_singleton i free).nodup_iff.mpr (List.nodup_cons.mpr ⟨hout, h.freeOnce⟩)
  · by_cases hji : j = i
    · rw [hji, one.written, hk]
    · have hmem : j ∈ free := by simpa [hji] using hj
      rw [one.others j hji, h.free j hmem]
  · obtain ⟨hji, hmem⟩ := h.expiryOnce.mem_erase_iff.mp hj
    rw [one.others j hji, h.expires j hmem]

theorem ListsSound.opened {s w : State} {i : Nat} {k : Hold} {rest expiry : List Nat}
    (h : ListsSound s.hold (i :: rest) expiry) (one : OneHold s w i k) (hk : k.isOpen = true)
    (deadlineOf : Nat → Nat) (d : Nat) : ListsSound w.hold rest (enterExpiry deadlineOf i d expiry) := by
  obtain ⟨hout, hrest⟩ := List.nodup_cons.mp h.freeOnce
  have hfree : (s.hold i).isOpen = false := h.free i List.mem_cons_self
  have hnot : i ∉ expiry := fun hmem => by simpa [hfree] using h.expires i hmem
  have hperm := enterExpiry_perm deadlineOf i d expiry
  refine ⟨hrest, fun j hj => ?_, hperm.nodup_iff.mpr (List.nodup_cons.mpr ⟨hnot, h.expiryOnce⟩), fun j hj => ?_⟩
  · rw [one.others j fun e => hout (e ▸ hj), h.free j (List.mem_cons_of_mem i hj)]
  · by_cases hji : j = i
    · rw [hji, one.written, hk]
    · have hmem : j ∈ expiry := by simpa [hji] using hperm.mem_iff.mp hj
      rw [one.others j hji, h.expires j hmem]

/-- A renewed hold leaves the expiry list and enters it again (R57). -/
theorem ListsSound.renewed {hold hold' : Nat → Hold} {free expiry : List Nat} (h : ListsSound hold free expiry) {i : Nat}
    (hopen : ∀ j, (hold' j).isOpen = (hold j).isOpen) (hi : (hold i).isOpen = true) (deadlineOf : Nat → Nat) (d : Nat) :
    ListsSound hold' free (enterExpiry deadlineOf i d (expiry.erase i)) := by
  have hperm := enterExpiry_perm deadlineOf i d (expiry.erase i)
  have honce : (i :: expiry.erase i).Nodup :=
    List.nodup_cons.mpr ⟨h.expiryOnce.not_mem_erase, h.expiryOnce.erase i⟩
  refine ⟨h.freeOnce, fun j hj => (hopen j).trans (h.free j hj), hperm.nodup_iff.mpr honce, fun j hj => ?_⟩
  rcases List.mem_cons.mp (hperm.mem_iff.mp hj) with rfl | hmem
  · rw [hopen, hi]
  · rw [hopen, h.expires j (List.mem_of_mem_erase hmem)]

end Sys2Proof.Machine
end

section
/-! PROOFS. The audited state: the balance of R124 together with what keeps it, the laws of the cards and of the two lists;
and that each operation on cards and holds keeps it. -/

namespace Sys2Proof.Machine

/-- The balance, and what every step needs and keeps for it: canonical tables, sound lists and sound cards. -/
structure Audited (s : State) : Prop where
  tables : TablesOk s
  lists : ListsSound s.hold s.freeList s.expiry
  cards : ∀ ref, CardSound s.hold ref (s.card ref)
  balance : BalanceOk s

theorem PoolOk.audited {s : State} (h : PoolOk s) (balance : BalanceOk s) : Audited s where
  tables := h.tables
  lists := ⟨h.freeOnce, fun i hi => ((h.free i).mp hi).2, h.expiryOnce, fun i hi => (h.expires i).mp hi⟩
  cards ref :=
    { chainOnce := h.chainOnce ref
      chained := h.chained ref
      held := h.held ref
      covered := h.covered ref
      blank := by
        intro href hstate
        cases ref with
        | real slot => exact (h.empty slot (.inl hstate)).1
        | trial t => cases href }
  balance := balance

/-! ### What the law does not read -/

/-- All of a state that the audit reads. -/
def State.books (s : State) : (Table Card × Vector Card 4) × (Table Hold × List Nat × List Nat) × Figures :=
  ((s.cards, s.trialCards), (s.holds, s.freeList, s.expiry), s.accounts.lifetime)

theorem State.hold_of_holds {s w : State} (h : w.holds = s.holds) : w.hold = s.hold :=
  congrArg (fun t : Table Hold => fun i => Table.look Hold.fresh t i) h

theorem Audited.of_books {s w : State} (h : Audited s) (hbooks : w.books = s.books) : Audited w := by
  simp only [State.books, Prod.mk.injEq] at hbooks
  obtain ⟨⟨hcards, htrials⟩, ⟨hholds, hfree, hexpiry⟩, hlifetime⟩ := hbooks
  have hhold : w.hold = s.hold := State.hold_of_holds hholds
  have hcard : ∀ ref, w.card ref = s.card ref := by
    rintro (slot | t)
    · simp only [State.card, State.slotCard, hcards]
    · simp only [State.card, htrials]
  refine ⟨?_, ?_, fun ref => ?_, ?_⟩
  · exact ⟨hcards ▸ h.tables.1, hholds ▸ h.tables.2⟩
  · rw [hhold, hfree, hexpiry]
    exact h.lists
  · rw [hhold, hcard]
    exact h.cards ref
  · rw [balanceOk_iff, hlifetime, totalValue_eq_total, hcards]
    exact h.balance

theorem plainKept_audited : PlainKept Audited where
  port _ _ _ _ h := h.of_books rfl
  accounts _ _ hlifetime h := h.of_books (by simp only [State.books, hlifetime])
  inFlight _ _ h := h.of_books rfl
  lastGranted _ _ h := h.of_books rfl
  clock _ _ h := h.of_books rfl
  pending _ _ h := h.of_books rfl

theorem Audited.modifySweep {s : State} (h : Audited s) (u : UnitId) (f : Sweep → Sweep) :
    Audited (s.modifySweep u f) :=
  h.of_books rfl

theorem Audited.endSweep {s : State} (h : Audited s) (u : UnitId) (reason : SweepReason) (slot : Option Nat) :
    Audited (s.endSweep u reason slot) :=
  h.of_books (by rw [State.endSweep_rest]; rfl)

/-! ### One card written -/

/-- A write of one card keeps the audit when the card is sound after it and the balance stands. -/
theorem Audited.of_card_written {s w : State} {ref : CardRef} {c : Card} (h : Audited s) (tables : TablesOk w)
    (one : OneCard s w ref c) (hpool : (w.holds, w.freeList, w.expiry) = (s.holds, s.freeList, s.expiry))
    (sound : CardSound s.hold ref c) (balance : BalanceOk w) : Audited w := by
  simp only [Prod.mk.injEq] at hpool
  obtain ⟨hholds, hfree, hexpiry⟩ := hpool
  have hhold : w.hold = s.hold := State.hold_of_holds hholds
  refine ⟨tables, ?_, fun q => ?_, balance⟩
  · rw [hhold, hfree, hexpiry]
    exact h.lists
  · rw [hhold]
    by_cases hq : q = ref
    · rw [hq, one.written]
      exact sound
    · rw [one.others q hq]
      exact h.cards q

/-- A write of state but to BLANK, of uses or of last activity keeps the audit. -/
theorem Audited.setCard_of_same_value {s : State} (h : Audited s) (ref : CardRef) {c : Card}
    (hchain : c.chain = (s.card ref).chain) (hheld : c.held = (s.card ref).held) (hvalue : c.value = (s.card ref).value)
    (hstate : c.state = .blank → (s.card ref).state = .blank) : Audited (s.setCard ref c) := by
  have written := cardWritten_setCard s ref c
  have tables := h.tables.setCard ref c
  refine h.of_card_written tables written.one ?_ ((h.cards ref).of_same_value hchain hheld hvalue hstate) ?_
  · rw [written.rest]
  · exact h.balance.of_same_value h.tables tables written.one hvalue (by rw [written.rest])

theorem Audited.noteActivity {s : State} (h : Audited s) (ref : CardRef) (p : PortId) (till : TillId)
    (kind : ActivityKind) : Audited (s.noteActivity ref p till kind) :=
  h.setCard_of_same_value ref rfl rfl rfl id

/-- Counting a use keeps the audit (R18). -/
theorem Audited.countUse {s : State} (h : Audited s) (ref : CardRef) (day : Nat) :
    Audited (s.setCard ref ((s.card ref).countUse day)) := by
  rw [Card.countUse_eq]
  exact h.setCard_of_same_value ref rfl rfl rfl id

/-- A write of a card with its movement reported keeps the audit when the new value covers the card's holds and moves by
what the counters take (R123). -/
theorem Audited.report {s t : State} {ref : CardRef} {c : Card} (h : Audited s) (tables : TablesOk t)
    (written : CardWritten s t ref c) (m : Movement) (sound : CardSound s.hold ref c)
    (hworth : c.worth = (s.card ref).worth + m.figures.net) : Audited (t.report ref m) := by
  obtain ⟨one, -, haccounts, rest⟩ := written.report m
  refine h.of_card_written (tables.report ref m) one ?_ sound ?_
  · rw [rest]
  · exact h.balance.of_movement h.tables (tables.report ref m) one hworth (congrArg Accounts.lifetime haccounts)

/-! ### Holds opened, freed and renewed -/

/-- The other cards keep their law when the written hold stands, before and after, against `ref` or is FREE. -/
theorem Audited.sound_of_hold_written {s w : State} {i : Nat} {k : Hold} {ref : CardRef} {c : Card} (h : Audited s)
    (hold : OneHold s w i k) (card : OneCard s w ref c) (hbefore : (s.hold i).isOpen = true → (s.hold i).card = ref)
    (hafter : k.isOpen = true → k.card = ref) (sound : CardSound w.hold ref c) (q : CardRef) :
    CardSound w.hold q (w.card q) := by
  by_cases hq : q = ref
  · rw [hq, card.written]
    exact sound
  · rw [card.others q hq]
    exact (h.cards q).of_other_hold hold (fun hopen e => hq (e ▸ hbefore hopen)) fun hopen e => hq (e ▸ hafter hopen)

/-- Freeing an open hold keeps the audit (R46). -/
theorem Audited.freeHold {s : State} (h : Audited s) {i : Nat} (hopen : (s.hold i).isOpen = true) :
    Audited (s.freeHold i) := by
  have moved := holdMoved_freeHold s i
  have tables := h.tables.freeHold i
  have sound := (h.cards (s.hold i).card).freed hopen moved.hold rfl
  refine ⟨tables, ?_, ?_, ?_⟩
  · rw [moved.free, moved.expiry]
    exact h.lists.freed hopen moved.hold rfl
  · exact h.sound_of_hold_written moved.hold moved.card (fun _ => rfl) (fun _ => rfl) sound
  · exact h.balance.of_same_value h.tables tables moved.card rfl (by rw [moved.rest])

/-- Freeing open holds one after another keeps the audit (R146). -/
theorem Audited.freeHolds {l : List Nat} (hnodup : l.Nodup) {s : State} (h : Audited s)
    (hopen : ∀ i ∈ l, (s.hold i).isOpen = true) : Audited (l.foldl State.freeHold s) := by
  induction l generalizing s with
  | nil => exact h
  | cons i rest ih =>
    obtain ⟨hi, hrest⟩ := List.nodup_cons.mp hnodup
    refine ih hrest (h.freeHold (hopen i List.mem_cons_self)) fun j hj => ?_
    rw [(holdMoved_freeHold s i).hold.others j fun e => hi (e ▸ hj)]
    exact hopen j (List.mem_cons_of_mem i hj)

/-- Opening the head of the free list for no more than is available keeps the audit (R45). -/
theorem Audited.openHold {s : State} (h : Audited s) {i : Nat} {rest : List Nat} (hfree : s.freeList = i :: rest)
    {ref : CardRef} {amount : Nat} (hroom : (s.card ref).held + amount ≤ (s.card ref).value) (p : PortId) (till : TillId)
    (lifetime : Nat) (long : Bool) : Audited (s.openHold i ref p till amount lifetime long) := by
  have moved := holdMoved_openHold s i ref p till amount lifetime long
  have tables := h.tables.openHold i ref p till amount lifetime long
  have lists := h.lists
  rw [hfree] at lists
  have hclosed : (s.hold i).isOpen = false := lists.free i List.mem_cons_self
  have sound := (h.cards ref).opened hclosed moved.hold rfl rfl hroom
  refine ⟨tables, ?_, ?_, ?_⟩
  · rw [moved.free, moved.expiry, hfree]
    exact lists.opened moved.hold rfl _ _
  · exact h.sound_of_hold_written moved.hold moved.card (fun e => by simp [hclosed] at e) (fun _ => rfl) sound
  · exact h.balance.of_same_value h.tables tables moved.card rfl (by rw [moved.rest])

/-- A field the write of one hold leaves reads alike of every hold. -/
theorem OneHold.same_field {s w : State} {i : Nat} {k : Hold} {β : Type} (one : OneHold s w i k) (field : Hold → β)
    (hk : field k = field (s.hold i)) (j : Nat) : field (w.hold j) = field (s.hold j) := by
  by_cases hj : j = i
  · rw [hj, one.written, hk]
  · rw [one.others j hj]

/-- Renewing an open hold keeps the audit (R57). -/
theorem Audited.renewHold {s : State} (h : Audited s) {i : Nat} (hopen : (s.hold i).isOpen = true) :
    Audited (s.renewHold i) where
  tables := h.tables.setHold i _
  lists := h.lists.renewed ((oneHold_renewHold s i).same_field Hold.isOpen rfl) hopen _ _
  cards ref :=
    have one := oneHold_renewHold s i
    have hcard : (s.renewHold i).card ref = s.card ref := by cases ref <;> rfl
    hcard ▸ (h.cards ref).of_same_amounts (one.same_field Hold.isOpen rfl) (one.same_field Hold.card rfl)
      (one.same_field Hold.amount rfl)
  balance := h.balance

end Sys2Proof.Machine
end

section
/-! PROOFS. Each request and each background grant that writes cards, holds, series, sweeps or trial cards keeps the
audited state. -/

namespace Sys2Proof.Machine

/-! ### What the checks of a request tell -/

theorem CardState.refusal_eq_none {c : CardState} : c.refusal = none ↔ c = .active := by
  cases c <;> simp [CardState.refusal]

theorem CardState.ne_blank_of_isIssued {c : CardState} (h : c.isIssued = true) : c ≠ .blank := by
  rintro rfl
  cases h

/-- A tag matches an open hold only (R47). -/
theorem State.isOpen_of_matchTag {s : State} {p : PortId} {name : HoldTag} {i : Nat}
    (h : s.matchTag p name = .matched i) : (s.hold i).isOpen = true := by
  simp only [State.matchTag] at h
  split at h
  case isFalse => cases h
  case isTrue hnamed =>
    split at h
    case isFalse => cases h
    case isTrue =>
      cases h
      exact hnamed.1

/-- A sale that passes its checks meets an ACTIVE card and takes no more than is available (R50, R75). -/
theorem active_and_available_of_saleCheck {s : State} {p : PortId} {code : CardCode} {asked amount : Nat} {flag : Bool}
    {t : Target} (h : saleCheck p code asked flag s = .passed t amount) :
    (s.card t.ref).state = .active ∧ amount ≤ (s.card t.ref).available := by
  unfold saleCheck at h
  split at h
  case isTrue => cases h
  case isFalse =>
    split at h
    case h_1 => cases h
    case h_2 target _ =>
      dsimp only at h
      split at h
      case h_1 => cases h
      case h_2 hrefusal =>
        split at h
        case isTrue => cases h
        case isFalse =>
          split at h
          case h_1 => cases h
          case h_2 hfound =>
            cases h
            refine ⟨CardState.refusal_eq_none.mp hrefusal, ?_⟩
            obtain ⟨-, ⟨hle, rfl⟩ | ⟨-, -, rfl⟩⟩ := amountFound_eq_some.mp hfound
            · exact hle
            · exact le_rfl

/-! ### Requests of a till -/

theorem Audited.reserveCard {s : State} (h : Audited s) (p : PortId) (code : CardCode) (till : TillId) (asked : Nat)
    (flag long : Bool) : Audited (reserveCard p code till asked flag long s).state := by
  unfold Machine.reserveCard
  split
  case h_1 => exact h
  case h_2 t amount hcheck =>
    split
    case isTrue => exact h
    case isFalse =>
      split
      case h_1 => exact h
      case h_2 i rest hfree =>
        obtain ⟨-, havailable⟩ := active_and_available_of_saleCheck hcheck
        have hcovered := (h.cards t.ref).covered
        have hroom : (s.card t.ref).held + amount ≤ (s.card t.ref).value := by
          rw [Card.available] at havailable
          omega
        have opened := h.openHold hfree hroom p till (lifetimeOf t.rules long) long
        exact (opened.countUse t.ref s.accounts.day).noteActivity t.ref p till .reserve

theorem Audited.renewTag {s : State} (h : Audited s) (p : PortId) (name : HoldTag) :
    Audited (renewTag p name s).state := by
  unfold Machine.renewTag
  split
  case h_1 => exact h
  case h_2 => exact h
  case h_3 i hmatch =>
    dsimp only
    split
    case isTrue => exact h
    case isFalse => exact h.renewHold (State.isOpen_of_matchTag hmatch)

/-- A CAPTURE of an open hold whose excess, if any, is available takes no more than the card holds (R69, R70). -/
theorem Audited.captureHold {s : State} (h : Audited s) {i final : Nat} (hopen : (s.hold i).isOpen = true)
    (hfunds : ¬((s.hold i).amount < final ∧
      (s.card (s.hold i).card).available < final - (s.hold i).amount)) (p : PortId) (till : TillId) :
    Audited (s.captureHold i p final till) := by
  have hamount := (h.cards (s.hold i).card).amount_le_held hopen
  have hcovered := (h.cards (s.hold i).card).covered
  rw [Card.available] at hfunds
  have freed := h.freeHold hopen
  have hcard := (holdMoved_freeHold s i).card.written
  have hheld := congrArg Card.held hcard
  have hvalue := congrArg Card.value hcard
  dsimp only at hheld hvalue
  have sound := freed.cards (s.hold i).card
  have written := (cardWritten_setCard (s.freeHold i) (s.hold i).card
    { (s.freeHold i).card (s.hold i).card with
      value := ((s.freeHold i).card (s.hold i).card).value - final }).noteActivity p till .capture
  refine freed.report ((freed.tables.setCard _ _).noteActivity _ _ _ _) written (.capture final)
    (sound.of_same_holds rfl rfl ?_ fun href hblank => ?_) ?_
  · dsimp only
    omega
  · dsimp only
    rw [sound.blank href hblank, Nat.zero_sub]
  · rw [Movement.net_capture]
    exact ofNat_sub_of_le (by omega)

theorem Audited.captureTag {s : State} (h : Audited s) (p : PortId) (name : HoldTag) (final : Nat) (till : TillId) :
    Audited (captureTag p name final till s).state := by
  unfold Machine.captureTag
  split
  case h_1 => exact h
  case h_2 => exact h
  case h_3 i hmatch =>
    dsimp only
    split
    case isTrue => exact h
    case isFalse hfunds => exact h.captureHold (State.isOpen_of_matchTag hmatch) hfunds p till

theorem Audited.releaseTag {s : State} (h : Audited s) (p : PortId) (name : HoldTag) :
    Audited (releaseTag p name s).state := by
  unfold Machine.releaseTag
  split
  case h_1 => exact h
  case h_2 => exact h
  case h_3 i hmatch =>
    exact (h.freeHold (State.isOpen_of_matchTag hmatch)).noteActivity _ _ _ _

theorem Audited.redeemCode {s : State} (h : Audited s) (p : PortId) (code : CardCode) (till : TillId) (asked : Nat)
    (flag : Bool) : Audited (redeemCode p code till asked flag s).state := by
  unfold Machine.redeemCode
  split
  case h_1 => exact h
  case h_2 t amount hcheck =>
    obtain ⟨hactive, havailable⟩ := active_and_available_of_saleCheck hcheck
    have sound := h.cards t.ref
    have hcovered := sound.covered
    rw [Card.available] at havailable
    have written := (cardWritten_setCard s t.ref
      ({ s.card t.ref with value := (s.card t.ref).value - amount }.countUse s.accounts.day)).noteActivity p till .redeem
    rw [Card.countUse_eq] at written
    change Audited (s.redeemCard p t.ref till amount)
    rw [State.redeemCard, Card.countUse_eq]
    refine h.report ((h.tables.setCard _ _).noteActivity _ _ _ _) written (.capture amount)
      (sound.of_same_holds rfl rfl ?_ ?_) ?_
    · dsimp only
      omega
    · intro _ hblank
      rw [hactive] at hblank
      cases hblank
    · rw [Movement.net_capture]
      exact ofNat_sub_of_le (by omega)

theorem Audited.loadCode {s : State} (h : Audited s) (p : PortId) (code : CardCode) (till : TillId) (asked : Nat) :
    Audited (loadCode p code till asked s).state := by
  unfold Machine.loadCode
  split
  case isTrue => exact h
  case isFalse =>
    split
    case h_1 => exact h
    case h_2 t _ =>
      dsimp only
      split
      case h_1 => exact h
      case h_2 hrefusal =>
        split
        case isTrue => exact h
        case isFalse =>
          have sound := h.cards t.ref
          have hactive := CardState.refusal_eq_none.mp hrefusal
          refine h.report ((h.tables.setCard _ _).noteActivity _ _ _ _)
            ((cardWritten_setCard s t.ref _).noteActivity p till .load) (.load _)
            (sound.of_same_holds rfl rfl (sound.covered.trans (Nat.le_add_right _ _)) ?_) ?_
          · intro _ hblank
            rw [hactive] at hblank
            cases hblank
          · rw [Movement.net_load]
            exact BitVec.ofNat_add _ _

/-! ### Requests of the office -/

/-- Issuing a BLANK slot keeps the audit: the record holds nothing before it (R22). -/
theorem Audited.issueSlot {s : State} (h : Audited s) {slot : Nat} (hblank : (s.slotCard slot).state = .blank)
    (value : Nat) : Audited (s.issueSlot slot value) := by
  have sound := h.cards (.real slot)
  have hvalue : (s.slotCard slot).value = 0 := sound.blank rfl hblank
  have hheld : (s.slotCard slot).held ≤ (s.slotCard slot).value := sound.covered
  refine h.report (h.tables.setCard (.real slot) _) (cardWritten_setCard s (.real slot) _) (.issue value)
    (sound.of_same_holds rfl rfl ?_ ?_) ?_
  · change (s.slotCard slot).held ≤ value
    omega
  · intro _ hactive
    cases hactive
  · have hworth : (s.card (.real slot)).worth = 0 := by
      change BitVec.ofNat 64 (s.slotCard slot).value = 0
      rw [hvalue]
      rfl
    rw [hworth, zero_add, Movement.net_issue]
    rfl

theorem Audited.issueCard {s : State} (h : Audited s) (address : Address) (value : Nat) :
    Audited (issueCard address value s).state := by
  unfold Machine.issueCard
  split
  case h_1 => exact h
  case h_2 slot e _ =>
    split
    case isTrue => exact h
    case isFalse hblank =>
      split
      case isTrue => exact h
      case isFalse => exact h.issueSlot (not_not.mp hblank) value

theorem Audited.moveState {s : State} (h : Audited s) (address : Address) (before : CardState) {after : CardState}
    (hafter : after ≠ .blank) : Audited (moveState address before after s).state := by
  unfold Machine.moveState
  split
  case h_1 => exact h
  case h_2 slot _ _ =>
    split
    case isTrue => exact h
    case isFalse => exact h.setCard_of_same_value (.real slot) rfl rfl rfl fun e => absurd e hafter

theorem Audited.retireCard {s : State} (h : Audited s) (address : Address) : Audited (retireCard address s).state := by
  unfold Machine.retireCard
  split
  case h_1 => exact h
  case h_2 slot _ _ =>
    dsimp only
    split
    case isTrue => exact h
    case isFalse =>
      split
      case isTrue => exact h
      case isFalse hchain =>
        have sound := h.cards (.real slot)
        have hheld := sound.held_eq_zero (not_not.mp hchain)
        refine h.report (h.tables.setCard (.real slot) _) (cardWritten_setCard s (.real slot) _)
          (.writeOff (s.slotCard slot).value) (sound.of_same_holds rfl rfl hheld.le fun _ _ => rfl) ?_
        rw [Movement.net_writeOff]
        exact (add_neg_cancel _).symm

theorem Audited.editCardFields {s : State} (h : Audited s) (address : Address) (editValue editUses : Bool)
    (newValue newUses : Nat) : Audited (editCardFields address editValue editUses newValue newUses s).state := by
  unfold Machine.editCardFields
  split
  case h_1 => exact h
  case h_2 slot _ _ =>
    dsimp only
    split
    case isTrue => exact h
    case isFalse hissued =>
      have hstate : (s.slotCard slot).state ≠ .blank := CardState.ne_blank_of_isIssued (by simpa using hissued)
      split
      case isTrue => exact h
      case isFalse hfield =>
        cases editValue with
        | false => exact h.setCard_of_same_value (.real slot) rfl rfl rfl id
        | true =>
          have sound := h.cards (.real slot)
          have hcovered : (s.slotCard slot).held ≤ newValue :=
            not_lt.mp fun hbelow => hfield ⟨rfl, .inr hbelow⟩
          refine h.report (h.tables.setCard (.real slot) _) (cardWritten_setCard s (.real slot) _)
            (.adjust (s.slotCard slot).value newValue)
            (sound.of_same_holds rfl rfl hcovered fun _ e => absurd e hstate) ?_
          rw [Movement.net_adjust]
          exact (add_sub_cancel _ _).symm

theorem Audited.writeSeries {s : State} (h : Audited s) (e : EntryId) (f : SeriesFields) :
    Audited (writeSeries e f s).state := by
  unfold Machine.writeSeries
  split
  case isTrue => exact h
  case isFalse =>
    split
    case isTrue => exact h
    case isFalse =>
      split
      case isTrue => exact h
      case isFalse => exact h.of_books rfl

theorem Audited.startSweep {s : State} (h : Audited s) (p : PortId) (params : SweepParams) :
    Audited (startSweep p params s).state := by
  unfold Machine.startSweep
  split
  case h_1 => exact h
  case h_2 u _ => exact h.modifySweep u fun _ => startedSweep p params

theorem Audited.startIssueRun {s : State} (h : Audited s) (p : PortId) (start stop stride value : Nat) :
    Audited (startIssueRun p start stop stride value s).state := by
  unfold Machine.startIssueRun
  split
  case isTrue => exact h.startSweep p _
  case isFalse => exact h

/-! ### Trial cards -/

/-- The trial cards after an accepted TRIAL-SET (R144). -/
theorem State.card_writeTrial (s : State) (values : Vector Nat 4) (t : TrialId) :
    (s.writeTrial values).card (.trial t) = { s.card (.trial t) with value := values[t] } := by
  fin_cases t <;> rfl

theorem State.chain_eq_nil_of_trialIdle {s : State} (h : s.trialIdle = true) (t : TrialId) :
    (s.card (.trial t)).chain = [] := by
  have hall := List.all_eq_true.mp h s.trialCards[t] (by simp)
  exact List.isEmpty_iff.mp hall

theorem Audited.setTrial {s : State} (h : Audited s) (write : Bool) (values : Vector Nat 4) :
    Audited (setTrial write values s).state := by
  unfold Machine.setTrial
  split
  case isFalse => exact h
  case isTrue =>
    split
    case isFalse => exact h
    case isTrue hidle =>
      refine ⟨h.tables, h.lists, fun ref => ?_, h.balance⟩
      cases ref with
      | real slot => exact h.cards (.real slot)
      | trial t =>
        have sound := h.cards (.trial t)
        have hheld := sound.held_eq_zero (State.chain_eq_nil_of_trialIdle hidle t)
        change CardSound s.hold (.trial t) ((s.writeTrial values).card (.trial t))
        rw [State.card_writeTrial]
        exact sound.of_same_holds rfl rfl (hheld ▸ Nat.zero_le _) fun href _ => by cases href

theorem Audited.leaveTrial {s : State} (h : Audited s) (p : PortId) : Audited (s.leaveTrial p) := by
  have hnodup : (s.trialHoldsOf p).Nodup := (sorted_filter h.tables.2 _).imp fun hlt => ne_of_lt hlt
  refine Audited.freeHolds hnodup h fun i hi => ?_
  have hread := (look_iff_mem h.tables.2 i (fun k => k.isOpen && k.card.isTrial && k.owner == p) rfl).mp hi
  simp only [Bool.and_eq_true] at hread
  exact hread.1.1

theorem Audited.setPortMode {s : State} (h : Audited s) (target : PortId) (role : Role) (mode : Mode) :
    Audited (setPortMode target role mode s).state := by
  unfold Machine.setPortMode
  split
  case isTrue => exact h
  case isFalse =>
    split
    case isTrue => exact h
    case isFalse =>
      change Audited (s.writePort target role mode)
      have left : Audited (if (s.port target).mode = .trial ∧ mode = .normal then s.leaveTrial target else s) := by
        split
        case isTrue => exact h.leaveTrial target
        case isFalse => exact h
      unfold State.writePort
      dsimp only
      cases role with
      | till => exact plainKept_audited.dropCloseOf _ _ _ (left.of_books rfl)
      | office => exact left.of_books rfl

/-! ### Steps of the sweeps -/

theorem Audited.searchStep {s : State} (h : Audited s) (u : UnitId) (stop : Nat) (critA critB : Criterion) (limit : Nat)
    (skip : Bool) : Audited (s.searchStep u stop critA critB limit skip) := by
  unfold State.searchStep
  dsimp only
  split
  case h_1 => exact (h.modifySweep u _).endSweep u _ _
  case h_2 => exact (h.modifySweep u _).endSweep u _ _
  all_goals
    split
    case isTrue => exact (h.modifySweep u _).endSweep u _ _
    case isFalse =>
      split
      case isTrue => exact (h.modifySweep u _).endSweep u _ _
      case isFalse => exact h.modifySweep u _

/-- A step that moves its cursor and may have reached its end keeps what its work kept (R104). -/
theorem Audited.cursorMoved {s : State} (h : Audited s) (u : UnitId) (f : Sweep → Sweep) (atEnd : Prop)
    [Decidable atEnd] :
    Audited (if atEnd then (s.modifySweep u f).endSweep u .done none else s.modifySweep u f) := by
  split
  case isTrue => exact (h.modifySweep u f).endSweep u _ _
  case isFalse => exact h.modifySweep u f

theorem Audited.tallyStep {s : State} (h : Audited s) (u : UnitId) (stop : Nat) : Audited (s.tallyStep u stop) :=
  h.cursorMoved u _ _

theorem Audited.purgeStep {s : State} (h : Audited s) (u : UnitId) (owner : PortId) (till : Option TillId) :
    Audited (s.purgeStep u owner till) := by
  refine Audited.cursorMoved ?_ u _ _
  split
  case isFalse => exact h
  case isTrue hmatches =>
    simp only [Hold.matchesPurge, Bool.and_eq_true] at hmatches
    exact ((h.freeHold hmatches.1.1).noteActivity _ _ _ _).modifySweep u _

theorem Audited.issueRunStep {s : State} (h : Audited s) (u : UnitId) (stop stride value : Nat) :
    Audited (s.issueRunStep u stop stride value) := by
  refine Audited.cursorMoved ?_ u _ _
  split
  case isTrue hblank => exact (h.issueSlot hblank value).modifySweep u _
  case isFalse => exact h.modifySweep u _

end Sys2Proof.Machine
end

section
/-! PROOFS. Power-on and RESET_N keep the audited state, so every step does, and with it the balance of R124. -/

namespace Sys2Proof.Machine

/-! ### Power-on and RESET_N -/

/-- A card without holds is sound where no hold is open. -/
theorem CardSound.of_no_holds {hold : Nat → Hold} {ref : CardRef} {c : Card} (hclosed : ∀ i, (hold i).isOpen = false)
    (hchain : c.chain = []) (hheld : c.held = 0) (hblank : ref.isTrial = false → c.state = .blank → c.value = 0) :
    CardSound hold ref c where
  chainOnce := hchain ▸ List.nodup_nil
  chained i := by simp [hchain, hclosed]
  held := by simp [hchain, hheld]
  covered := hheld ▸ Nat.zero_le _
  blank := hblank

theorem State.card_reset_trial (t : TrialId) : State.reset.card (.trial t) = Card.trialStart := by
  simp [State.card, State.reset]

theorem State.freeList_reset : State.reset.freeList = List.range Config.holdRecords := by
  simp only [State.reset]

theorem audited_reset : Audited State.reset where
  tables := ⟨Table.wf_nil _, Table.wf_nil _⟩
  lists :=
    { freeOnce := by
        rw [State.freeList_reset]
        exact List.nodup_range
      free := fun _ _ => rfl
      expiryOnce := List.nodup_nil
      expires := fun _ hi => absurd hi List.not_mem_nil }
  cards ref := by
    cases ref with
    | real slot => exact .of_no_holds (fun _ => rfl) rfl rfl fun _ _ => rfl
    | trial t =>
      rw [State.card_reset_trial]
      exact .of_no_holds (fun _ => rfl) rfl rfl fun href _ => by cases href
  balance := rfl

theorem State.hold_resetLine {s : State} (h : TablesOk s) (i : Nat) : s.resetLine.hold i = (s.hold i).afterReset :=
  Table.look_mapRecords Hold.afterReset rfl s.holds i h.2.1

theorem State.slotCard_resetLine {s : State} (h : TablesOk s) (slot : Nat) :
    s.resetLine.slotCard slot = (s.slotCard slot).afterReset :=
  Table.look_mapRecords Card.afterReset rfl s.cards slot h.1.1

theorem State.card_resetLine_trial (s : State) (t : TrialId) :
    s.resetLine.card (.trial t) = (s.card (.trial t)).trialAfterReset s.trialBases[t] := by
  fin_cases t <;> rfl

theorem Hold.isOpen_afterReset (h : Hold) : h.afterReset.isOpen = false := by
  unfold Hold.afterReset
  split
  case isTrue => rfl
  case isFalse hopen => exact Bool.eq_false_iff.mpr hopen

theorem State.mem_openIndices {s : State} (h : TablesOk s) (i : Nat) :
    i ∈ s.openIndices ↔ (s.hold i).isOpen = true :=
  look_iff_mem h.2 i Hold.isOpen rfl

/-- An assertion of RESET_N keeps the audit: it frees every hold and leaves the card values and the lifetime counters
(R35, R61, R139). -/
theorem Audited.resetLine {s : State} (h : Audited s) : Audited s.resetLine := by
  have hclosed : ∀ i, (s.resetLine.hold i).isOpen = false := fun i => by
    rw [State.hold_resetLine h.tables, Hold.isOpen_afterReset]
  refine ⟨?tables, ?lists, fun ref => ?cards, ?balance⟩
  case tables => exact ⟨Table.wf_mapRecords _ h.tables.1, Table.wf_mapRecords _ h.tables.2⟩
  case lists =>
    have hopenOnce : s.openIndices.Nodup := (sorted_filter h.tables.2 _).imp fun hlt => ne_of_lt hlt
    refine ⟨List.nodup_append'.mpr ⟨h.lists.freeOnce, hopenOnce, fun i hfree hopen => ?_⟩, fun i _ => hclosed i,
      List.nodup_nil, fun _ hi => absurd hi List.not_mem_nil⟩
    rw [State.mem_openIndices h.tables, h.lists.free i hfree] at hopen
    cases hopen
  case cards =>
    cases ref with
    | real slot =>
      change CardSound _ _ (s.resetLine.slotCard slot)
      rw [State.slotCard_resetLine h.tables]
      exact .of_no_holds hclosed rfl rfl (h.cards (.real slot)).blank
    | trial t =>
      rw [State.card_resetLine_trial]
      exact .of_no_holds hclosed rfl rfl fun href _ => by cases href
  case balance =>
    have dropped := (plainKept_audited.dropClose s none h).balance
    have hcards : (s.dropClose none).cards = s.cards := by rw [dropClose_none]
    rw [balanceOk_iff, totalValue_eq_total, hcards] at dropped
    exact (Table.total_mapRecords (d := Card.blank) (f := Card.worth) (g := Card.afterReset) rfl (fun _ => rfl)
      s.cards).trans dropped

theorem Audited.setBoard {s : State} (h : Audited s) (rate : LineRate) (queue : List Instr) :
    Audited { s with lineRate := rate, pending := queue } :=
  h.of_books rfl

theorem boardKept_audited : BoardKept Audited where
  powerOn rate queue := audited_reset.setBoard rate queue
  resetLine _ h := h.resetLine
  release _ _ h := h.of_books rfl

/-! ### Every step -/

theorem opsKept_audited : OpsKept Audited fun _ => True where
  toPlainKept := plainKept_audited
  lapse s i rest h hhead := h.freeHold (h.lists.expires i (hhead ▸ List.mem_cons_self))
  note _ ref p till kind h := h.noteActivity ref p till kind
  endSweep _ u reason slot h := h.endSweep u reason slot
  searchStep _ u _ stop critA critB limit skip h _ := h.searchStep u stop critA critB limit skip
  tallyStep _ u _ stop h _ := h.tallyStep u stop
  purgeStep _ u owner till h _ := h.purgeStep u owner till
  issueRunStep _ u _ stop stride value h _ := h.issueRunStep u stop stride value
  reserve p code till asked flag long _ h := h.reserveCard p code till asked flag long
  renew p name _ h := h.renewTag p name
  capture p name final till _ h := h.captureTag p name final till
  release p name _ h := h.releaseTag p name
  redeem p code till asked flag _ h := h.redeemCode p code till asked flag
  load p code till asked _ h := h.loadCode p code till asked
  setSeries e f _ _ h := h.writeSeries e f
  issue address value _ _ h := h.issueCard address value
  block address _ h := h.moveState address .active (by decide)
  unblock address _ h := h.moveState address .blocked (by decide)
  retire address _ h := h.retireCard address
  edit address editValue editUses newValue newUses _ _ h := h.editCardFields address editValue editUses newValue newUses
  search p start stop critA critB limit skip _ _ h := h.startSweep p (.search start stop critA critB limit skip)
  tally p start stop _ _ h := h.startSweep p (.tally start stop)
  purge p owner till _ h := h.startSweep p (.purge owner till)
  issueRun p start stop stride value _ _ h := h.startIssueRun p start stop stride value
  trialSet write values _ _ h := h.setTrial write values
  setPort target role mode _ h := h.setPortMode target role mode

/-- Every step keeps the audited state. -/
theorem step_audited {s t : State} (h : Audited s) (hstep : step s = .next t) : Audited t :=
  step_keeps opsKept_audited boardKept_audited s t (fun _ _ _ => trivial) h hstep

/-- Settles O58: the pool laws make the state audited, every step keeps that, and the balance is part of it. -/
theorem stepKeepsTheBalance : Obligations.StepKeepsTheBalance := by
  intro s t _ _ hpool hbalance hstep
  exact (step_audited (hpool.audited hbalance) hstep).balance

end Sys2Proof.Machine
end

section
/-! PROOFS. A property that every single write of a record keeps is kept by every operation on cards, holds, series, sweeps
and trial cards; and the canonical form of the tables is such a property. -/

namespace Sys2Proof.Machine

/-! ### Operations from single writes -/

/-- The single writes of the stores keep `P`: a card, a hold record, the two lists of the pool, an open-hold count, a
reported movement, and the values of the trial cards. -/
structure StoresKept (P : State → Prop) : Prop where
  card : ∀ s ref c, P s → P (State.setCard s ref c)
  hold : ∀ s i h, P s → P (State.setHold s i h)
  lists : ∀ s free expiry, P s → P { s with freeList := free, expiry := expiry }
  count : ∀ s e n, P s → P (State.modifyEntry s e fun x => { x with openHolds := n })
  report : ∀ s ref m, P s → P (State.report s ref m)
  trials : ∀ s values, P s → P (State.writeTrial s values)

/-- The steps, ends and starts of sweeps keep `P`, for requests that satisfy `R`. -/
structure SweepsKept (P : State → Prop) (R : Request → Prop) : Prop where
  endSweep : ∀ s u r o, P s → P (State.endSweep s u r o)
  searchStep : ∀ s u a b c d e f, P s → (s.sweep u).params = .search a b c d e f →
    P (State.searchStep s u b c d e f)
  tallyStep : ∀ s u a b, P s → (s.sweep u).params = .tally a b → P (State.tallyStep s u b)
  purgeStep : ∀ s u o t, P s → (s.sweep u).params = .purge o t → P (State.purgeStep s u o t)
  issueRunStep : ∀ s u a b c d, P s → (s.sweep u).params = .issueRun a b c d → P (State.issueRunStep s u b c d)
  search : ∀ p a b c d e f s, R (.search a b c d e f) → P s → P (startSweep p (.search a b c d e f) s).state
  tally : ∀ p a b s, R (.tally a b) → P s → P (startSweep p (.tally a b) s).state
  purge : ∀ p a b s, P s → P (startSweep p (.purge a b) s).state
  issueRun : ∀ p a b c d s, R (.issueRun a b c d) → P s → P (startIssueRun p a b c d s).state

namespace StoresKept

variable {P : State → Prop} (K : StoresKept P)
include K

theorem note (s : State) (ref : CardRef) (p : PortId) (till : TillId) (kind : ActivityKind) (h : P s) :
    P (s.noteActivity ref p till kind) :=
  K.card _ _ _ h

theorem countHold (s : State) (ref : CardRef) (f : Nat → Nat) (h : P s) : P (s.countHold ref f) := by
  unfold State.countHold
  cases ref with
  | trial t => exact h
  | real slot =>
    dsimp only
    split
    case h_1 e _ => exact K.count s e (f (s.entry e).openHolds) h
    case h_2 => exact h

theorem freeHold (s : State) (i : Nat) (h : P s) : P (s.freeHold i) := by
  unfold State.freeHold
  exact K.countHold _ _ _ (K.lists _ _ _ (K.hold _ _ _ (K.card _ _ _ h)))

theorem freeHolds (l : List Nat) (s : State) (h : P s) : P (l.foldl State.freeHold s) := by
  induction l generalizing s with
  | nil => exact h
  | cons i rest ih => exact ih _ (K.freeHold s i h)

theorem openHold (s : State) (i : Nat) (ref : CardRef) (p : PortId) (till : TillId) (amount lifetime : Nat)
    (long : Bool) (h : P s) : P (s.openHold i ref p till amount lifetime long) := by
  unfold State.openHold
  exact K.countHold _ _ _ (K.lists _ _ _ (K.hold _ _ _ (K.card _ _ _ h)))

theorem reserve (p : PortId) (code : CardCode) (till : TillId) (asked : Nat) (flag long : Bool) (s : State) (h : P s) :
    P (reserveCard p code till asked flag long s).state := by
  unfold reserveCard
  split
  case h_1 => exact h
  case h_2 =>
    split
    case isTrue => exact h
    case isFalse =>
      split
      case h_1 => exact h
      case h_2 => exact K.note _ _ _ _ _ (K.card _ _ _ (K.openHold _ _ _ _ _ _ _ _ h))

theorem renew (p : PortId) (tag : HoldTag) (s : State) (h : P s) : P (renewTag p tag s).state := by
  unfold renewTag
  split
  case h_1 => exact h
  case h_2 => exact h
  case h_3 i _ =>
    dsimp only
    split
    case isTrue => exact h
    case isFalse => exact K.lists _ s.freeList _ (K.hold s i _ h)

theorem capture (p : PortId) (tag : HoldTag) (final : Nat) (till : TillId) (s : State) (h : P s) :
    P (captureTag p tag final till s).state := by
  unfold captureTag
  split
  case h_1 => exact h
  case h_2 => exact h
  case h_3 =>
    dsimp only
    split
    case isTrue => exact h
    case isFalse => exact K.report _ _ _ (K.note _ _ _ _ _ (K.card _ _ _ (K.freeHold _ _ h)))

theorem release (p : PortId) (tag : HoldTag) (s : State) (h : P s) : P (releaseTag p tag s).state := by
  unfold releaseTag
  split
  case h_1 => exact h
  case h_2 => exact h
  case h_3 => exact K.note _ _ _ _ _ (K.freeHold _ _ h)

theorem redeem (p : PortId) (code : CardCode) (till : TillId) (asked : Nat) (flag : Bool) (s : State) (h : P s) :
    P (redeemCode p code till asked flag s).state := by
  unfold redeemCode
  split
  case h_1 => exact h
  case h_2 => exact K.report _ _ _ (K.note _ _ _ _ _ (K.card _ _ _ h))

theorem load (p : PortId) (code : CardCode) (till : TillId) (asked : Nat) (s : State) (h : P s) :
    P (loadCode p code till asked s).state := by
  unfold loadCode
  split
  case isTrue => exact h
  case isFalse =>
    split
    case h_1 => exact h
    case h_2 =>
      dsimp only
      split
      case h_1 => exact h
      case h_2 =>
        split
        case isTrue => exact h
        case isFalse => exact K.report _ _ _ (K.note _ _ _ _ _ (K.card _ _ _ h))

theorem issueSlot (s : State) (slot value : Nat) (h : P s) : P (s.issueSlot slot value) :=
  K.report _ _ _ (K.card s (.real slot) _ h)

theorem issue (address : Address) (value : Nat) (s : State) (h : P s) : P (issueCard address value s).state := by
  unfold issueCard
  split
  case h_1 => exact h
  case h_2 =>
    split
    case isTrue => exact h
    case isFalse =>
      split
      case isTrue => exact h
      case isFalse => exact K.issueSlot _ _ _ h

theorem moveState (address : Address) (before after : CardState) (s : State) (h : P s) :
    P (moveState address before after s).state := by
  unfold Machine.moveState
  split
  case h_1 => exact h
  case h_2 slot _ _ =>
    split
    case isTrue => exact h
    case isFalse => exact K.card s (.real slot) _ h

theorem retire (address : Address) (s : State) (h : P s) : P (retireCard address s).state := by
  unfold retireCard
  split
  case h_1 => exact h
  case h_2 slot _ _ =>
    dsimp only
    split
    case isTrue => exact h
    case isFalse =>
      split
      case isTrue => exact h
      case isFalse =>
        exact K.report _ (.real slot) (.writeOff (s.slotCard slot).value)
          (K.card s (.real slot) { s.slotCard slot with state := .retired, value := 0 } h)

theorem edit (address : Address) (editValue editUses : Bool) (newValue newUses : Nat) (s : State) (h : P s) :
    P (editCardFields address editValue editUses newValue newUses s).state := by
  unfold editCardFields
  split
  case h_1 => exact h
  case h_2 slot _ _ =>
    dsimp only
    split
    case isTrue => exact h
    case isFalse =>
      split
      case isTrue => exact h
      case isFalse =>
        have written := K.card s (.real slot)
          ((s.slotCard slot).edited editValue editUses newValue newUses s.accounts.day) h
        cases editValue with
        | true => exact K.report _ (.real slot) (.adjust (s.slotCard slot).value newValue) written
        | false => exact written

theorem trialSet (write : Bool) (values : Vector Nat 4) (s : State) (h : P s) : P (setTrial write values s).state := by
  unfold setTrial
  split
  case isFalse => exact h
  case isTrue =>
    split
    case isTrue => exact K.trials _ _ h
    case isFalse => exact h

theorem leaveTrial (s : State) (p : PortId) (h : P s) : P (s.leaveTrial p) :=
  K.freeHolds _ s h

theorem setPortMode (hdrop : ∀ s p c, P s → P (State.dropCloseOf s p c))
    (hrole : ∀ s p role mode, P s → P (State.modifyPort s p fun port => { port with role := role, mode := mode }))
    (target : PortId) (role : Role) (mode : Mode) (s : State) (h : P s) : P (setPortMode target role mode s).state := by
  unfold Machine.setPortMode
  split
  case isTrue => exact h
  case isFalse =>
    split
    case isTrue => exact h
    case isFalse =>
      change P (s.writePort target role mode)
      have left : P (if (s.port target).mode = .trial ∧ mode = .normal then s.leaveTrial target else s) := by
        split
        case isTrue => exact K.leaveTrial s target h
        case isFalse => exact h
      unfold State.writePort
      cases role with
      | till => exact hdrop _ _ _ (hrole _ _ _ _ left)
      | office => exact hrole _ _ _ _ left

end StoresKept

section
variable {P : State → Prop} (I : PlainKept P) (K : StoresKept P)
include I K

/-- What the single writes keep, every operation keeps, given the writes of a port's mode, of the series table and of the
sweeps. -/
theorem opsKept_of_writes {R : Request → Prop} (hport : ∀ s p f, P s → P (State.modifyPort s p f))
    (setSeries : ∀ e f s, R (.setSeries e f) → P s → P (writeSeries e f s).state) (sweeps : SweepsKept P R) :
    OpsKept P R where
  toPlainKept := I
  lapse s i _ h _ := K.freeHold s i h
  note := K.note
  endSweep := sweeps.endSweep
  searchStep := sweeps.searchStep
  tallyStep := sweeps.tallyStep
  purgeStep := sweeps.purgeStep
  issueRunStep := sweeps.issueRunStep
  reserve := K.reserve
  renew := K.renew
  capture := K.capture
  release := K.release
  redeem := K.redeem
  load := K.load
  setSeries := setSeries
  issue address value s _ h := K.issue address value s h
  block address s h := K.moveState address _ _ s h
  unblock address s h := K.moveState address _ _ s h
  retire := K.retire
  edit address a b c d s _ h := K.edit address a b c d s h
  search := sweeps.search
  tally := sweeps.tally
  purge := sweeps.purge
  issueRun := sweeps.issueRun
  trialSet write values s _ h := K.trialSet write values s h
  setPort := K.setPortMode I.dropCloseOf fun s p _ _ h => hport s p _ h

end

/-! ### Sweeps from single writes -/

section
variable {P : State → Prop} (hnotify : ∀ s p n, P s → P (State.notify s p n))
  (hsweep : ∀ s u f, P s → P (State.modifySweep s u f))
include hnotify hsweep

theorem endSweep_keeps (s : State) (u : UnitId) (reason : SweepReason) (slot : Option Nat) (h : P s) :
    P (s.endSweep u reason slot) := by
  have idle := hsweep s u (fun x => { x with running := false }) h
  refine hnotify _ _ _ ?_
  unfold State.notifyPurged
  split
  case h_1 =>
    split
    case isTrue => exact hnotify _ _ _ idle
    case isFalse => exact idle
  case h_2 => exact idle

/-- The last writes of a step: the cursor moved, and the sweep ended where the step reached its end. -/
theorem cursorMoved_keeps (s : State) (u : UnitId) (f : Sweep → Sweep) (atEnd : Prop) [Decidable atEnd] (h : P s) :
    P (if atEnd then (s.modifySweep u f).endSweep u .done none else s.modifySweep u f) := by
  split
  case isTrue => exact endSweep_keeps hnotify hsweep _ _ _ _ (hsweep _ _ _ h)
  case isFalse => exact hsweep _ _ _ h

omit hnotify in
theorem startSweep_keeps (p : PortId) (params : SweepParams) (s : State) (h : P s) :
    P (startSweep p params s).state := by
  unfold Machine.startSweep
  split
  case h_1 => exact h
  case h_2 u _ => exact hsweep s u (fun _ => startedSweep p params) h

/-- What the single writes keep, with every write of a sweep unit, the sweeps keep. -/
theorem sweepsKept_of_writes (K : StoresKept P) (R : Request → Prop) : SweepsKept P R where
  endSweep := endSweep_keeps hnotify hsweep
  searchStep s u _ stop critA critB limit skip h _ := by
    unfold State.searchStep
    dsimp only
    have moved := fun f => hsweep s u f h
    split
    case h_1 => exact endSweep_keeps hnotify hsweep _ _ _ _ (moved _)
    case h_2 => exact endSweep_keeps hnotify hsweep _ _ _ _ (moved _)
    all_goals
      split
      case isTrue => exact endSweep_keeps hnotify hsweep _ _ _ _ (moved _)
      case isFalse =>
        split
        case isTrue => exact endSweep_keeps hnotify hsweep _ _ _ _ (moved _)
        case isFalse => exact moved _
  tallyStep s u _ stop h _ := cursorMoved_keeps hnotify hsweep s u _ _ h
  purgeStep s u owner till h _ := by
    refine cursorMoved_keeps hnotify hsweep _ u _ _ ?_
    split
    case isTrue => exact hsweep _ _ _ (K.note _ _ _ _ _ (K.freeHold _ _ h))
    case isFalse => exact h
  issueRunStep s u _ stop stride value h _ := by
    refine cursorMoved_keeps hnotify hsweep _ u _ _ ?_
    split
    case isTrue => exact hsweep _ _ _ (K.issueSlot _ _ _ h)
    case isFalse => exact hsweep _ _ _ h
  search p _ _ _ _ _ _ s _ h := startSweep_keeps hsweep p _ s h
  tally p _ _ s _ h := startSweep_keeps hsweep p _ s h
  purge p _ _ s h := startSweep_keeps hsweep p _ s h
  issueRun p start stop stride value s _ h := by
    unfold startIssueRun
    split
    case isTrue => exact startSweep_keeps hsweep p _ s h
    case isFalse => exact h

end

/-- A SET-SERIES keeps what the write of its entry's fields keeps. -/
theorem writeSeries_keeps {P : State → Prop} {e : EntryId} {f : SeriesFields} {s : State} (h : P s)
    (hwrite : f.inRange = true → s.overlapsOther e f = false → P (s.modifyEntry e fun x => { x with fields := f })) :
    P (writeSeries e f s).state := by
  unfold writeSeries
  split
  case isTrue => exact h
  case isFalse hrange =>
    split
    case isTrue => exact h
    case isFalse =>
      split
      case isTrue => exact h
      case isFalse hover => exact hwrite (by simpa using hrange) (by simpa using hover)

/-! ### The canonical tables -/

theorem plainKept_tablesOk : PlainKept TablesOk where
  port _ _ _ _ h := h
  accounts _ _ _ h := h
  inFlight _ _ h := h
  lastGranted _ _ h := h
  clock _ _ h := h
  pending _ _ h := h

theorem storesKept_tablesOk : StoresKept TablesOk where
  card _ ref c h := h.setCard ref c
  hold _ i k h := h.setHold i k
  lists _ _ _ h := h
  count _ _ _ h := h
  report _ ref m h := h.report ref m
  trials _ _ h := h

theorem boardKept_tablesOk : BoardKept TablesOk where
  powerOn _ _ := ⟨Table.wf_nil _, Table.wf_nil _⟩
  resetLine _ h := ⟨Table.wf_mapRecords _ h.1, Table.wf_mapRecords _ h.2⟩
  release _ _ h := h

/-- Settles O53: every single write of a table keeps its canonical form, and RESET_N rewrites both tables record by
record. -/
theorem stepKeepsTables : Obligations.StepKeepsTables := by
  intro s t htables hstep
  have sweeps := sweepsKept_of_writes plainKept_tablesOk.notify (fun _ _ _ h => h) storesKept_tablesOk fun _ => True
  have ops := opsKept_of_writes plainKept_tablesOk storesKept_tablesOk (fun _ _ _ h => h)
    (fun _ _ _ _ h => writeSeries_keeps h fun _ _ => h) sweeps
  exact step_keeps ops boardKept_tablesOk s t (fun _ _ _ => trivial) htables hstep

end Sys2Proof.Machine
end

section
/-! PROOFS. The law of the series table: it reads the written fields of the entries only, a write of one entry's fields
keeps it when the fields are in range and overlap no other enabled entry, and no other operation writes them. -/

namespace Sys2Proof.Machine

/-- The written fields of every entry: all of a state that the law of the series table reads. -/
def State.seriesFields (s : State) (e : EntryId) : SeriesFields :=
  (s.entry e).fields

theorem SeriesOk.of_fields {s w : State} (h : SeriesOk s) (hfields : w.seriesFields = s.seriesFields) : SeriesOk w := by
  have hf : ∀ e, (w.entry e).fields = (s.entry e).fields := congrFun hfields
  exact ⟨fun e => by rw [hf]; exact h.ranges e, fun e => by rw [hf]; exact h.widths e,
    fun e o hne => by rw [hf, hf]; exact h.disjoint e o hne⟩

/-- A write of an entry that keeps its fields leaves the fields of the table. -/
theorem State.seriesFields_modifyEntry {s : State} {e : EntryId} {f : SeriesEntry → SeriesEntry}
    (hf : (f (s.entry e)).fields = (s.entry e).fields) : (s.modifyEntry e f).seriesFields = s.seriesFields := by
  funext o
  rw [State.seriesFields, State.entry_modifyEntry]
  split
  case isTrue he => rw [hf, he]; rfl
  case isFalse => rfl

theorem plainKept_seriesOk : PlainKept SeriesOk where
  port _ _ _ _ h := h.of_fields rfl
  accounts _ _ _ h := h.of_fields rfl
  inFlight _ _ h := h.of_fields rfl
  lastGranted _ _ h := h.of_fields rfl
  clock _ _ h := h.of_fields rfl
  pending _ _ h := h.of_fields rfl

theorem storesKept_seriesOk : StoresKept SeriesOk where
  card _ ref _ h := h.of_fields (by cases ref <;> rfl)
  hold _ _ _ h := h.of_fields rfl
  lists _ _ _ h := h.of_fields rfl
  count _ _ _ h := h.of_fields (State.seriesFields_modifyEntry rfl)
  report _ ref _ h := h.of_fields (by cases ref <;> rfl)
  trials _ _ h := h.of_fields rfl

/-- Slot ranges that share no slot by the check of SET-SERIES share none (R9). -/
theorem SeriesFields.not_both_cover {f g : SeriesFields} (h : f.overlaps g = false) (slot : Nat) :
    ¬(f.covers slot = true ∧ g.covers slot = true) := by
  simp only [SeriesFields.overlaps, SeriesFields.covers, Bool.and_eq_true, Bool.and_eq_false_iff, decide_eq_true_eq,
    decide_eq_false_iff_not] at h ⊢
  omega

/-- The OVERLAP check of SET-SERIES finds every other enabled entry that shares a slot (R9). -/
theorem State.overlaps_of_overlapsOther {s : State} {e o : EntryId} {f : SeriesFields}
    (h : s.overlapsOther e f = false) (hne : o ≠ e) (hf : f.enabled = true) (ho : (s.entry o).fields.enabled = true) :
    f.overlaps (s.entry o).fields = false := by
  have hmem : ∀ x, x ∈ allEntries := by decide
  simp only [State.overlapsOther, hf, Bool.true_and, List.any_eq_false] at h
  simpa [hne, ho] using h o (hmem o)

/-- The write of an accepted SET-SERIES keeps the law of the series table (R8, R9). -/
theorem SeriesOk.written {s : State} (h : SeriesOk s) {e : EntryId} {f : SeriesFields} (hrange : f.inRange = true)
    (hlong : f.longLifetime < 2 ^ 16) (huse : f.useLimit < 256) (hover : s.overlapsOther e f = false) :
    SeriesOk (s.modifyEntry e fun x => { x with fields := f }) := by
  have written : ∀ o, ((s.modifyEntry e fun x => { x with fields := f }).entry o).fields =
      if e = o then f else (s.entry o).fields := by
    intro o
    rw [State.entry_modifyEntry]
    split <;> rfl
  refine ⟨fun o => ?ranges, fun o => ?widths, fun a b hne => ?disjoint⟩
  case ranges =>
    rw [written]
    split
    case isTrue => exact .inr hrange
    case isFalse => exact h.ranges o
  case widths =>
    rw [written]
    split
    case isTrue => exact ⟨hlong, huse⟩
    case isFalse => exact h.widths o
  case disjoint =>
    rw [written, written]
    by_cases ha : e = a
    · subst ha
      rw [if_pos rfl, if_neg hne]
      intro hf ho
      exact SeriesFields.not_both_cover (State.overlaps_of_overlapsOther hover (Ne.symm hne) hf ho)
    · rw [if_neg ha]
      by_cases hb : e = b
      · rw [if_pos hb]
        intro ho hf slot
        have := SeriesFields.not_both_cover (State.overlaps_of_overlapsOther hover (Ne.symm ha) hf ho) slot
        exact fun ⟨h1, h2⟩ => this ⟨h2, h1⟩
      · rw [if_neg hb]
        exact h.disjoint a b hne

theorem State.entry_reset (e : EntryId) : State.reset.entry e = .cleared := by
  simp [State.entry, State.reset]

theorem seriesOk_reset : SeriesOk State.reset where
  ranges e := by rw [State.entry_reset]; exact .inl rfl
  widths e := by rw [State.entry_reset]; decide
  disjoint e o _ he _ := by rw [State.entry_reset] at he; cases he

theorem State.seriesFields_resetLine (s : State) : s.resetLine.seriesFields = s.seriesFields := by
  funext e
  simp [State.seriesFields, State.entry, State.resetLine, mapVec_getElem]

theorem boardKept_seriesOk : BoardKept SeriesOk where
  powerOn _ _ := seriesOk_reset.of_fields rfl
  resetLine s h := h.of_fields s.seriesFields_resetLine
  release _ _ h := h.of_fields rfl

/-- Settles O56: only an accepted SET-SERIES writes fields, its content checks bound their widths and its own checks their
ranges. -/
theorem stepKeepsSeries : Obligations.StepKeepsSeries := by
  intro s t hports hseries hstep
  have sweeps := sweepsKept_of_writes plainKept_seriesOk.notify (fun _ _ _ h => h.of_fields rfl) storesKept_seriesOk
    fun r => r.inRange = true
  have ops : OpsKept SeriesOk fun r => r.inRange = true := by
    refine opsKept_of_writes plainKept_seriesOk storesKept_seriesOk (fun _ _ _ h => h.of_fields rfl)
      (fun e f s hr h => writeSeries_keeps h fun hrange hover => ?_) sweeps
    simp only [Request.inRange, Bool.and_eq_true, decide_eq_true_eq] at hr
    obtain ⟨⟨⟨-, hlong⟩, huse⟩, -⟩ := hr
    exact h.written hrange hlong huse hover
  exact step_keeps ops boardKept_seriesOk s t (fun p => (hports p).contents) hseries hstep

end Sys2Proof.Machine
end

section
/-! PROOFS. The law of the sweep units: a RUNNING unit's cursor stands in its range and a RUNNING TALLY's sums with its
drifts are the contributions of the slots it has passed. A write of a card moves both sides of that law alike. -/

namespace Sys2Proof.Machine

/-! ### The law of one unit -/

/-- The contributions of the slots of a range below a cursor, as the card records `card` give them (R113). -/
def contributionsOf (card : Nat → Card) (start cursor : Nat) : Drift where
  value := ((List.range' start (cursor - start)).map fun n => (card n).contribution.value).sum
  held := ((List.range' start (cursor - start)).map fun n => (card n).contribution.held).sum
  count := ((List.range' start (cursor - start)).map fun n => (card n).contribution.count).sum

/-- The sums of a TALLY with its drifts (R113). -/
def Sweep.tallied (w : Sweep) : Drift :=
  ⟨w.results.valueSum + w.drift.value, w.results.heldSum + w.drift.held,
    BitVec.ofNat 64 w.results.cardCount + w.drift.count⟩

/-- The law of one unit against the card records (R104, R113). -/
structure UnitOk (card : Nat → Card) (w : Sweep) : Prop where
  cursor : w.running = true → w.cursorOk
  tally : ∀ start stop, w.running = true → w.params = .tally start stop →
    contributionsOf card start w.cursor = w.tallied

theorem sweepsOk_iff (s : State) : SweepsOk s ↔ ∀ u, UnitOk s.slotCard (s.sweep u) :=
  ⟨fun h u => ⟨h.cursors u, h.tallies u⟩, fun h => ⟨fun u => (h u).cursor, fun u => (h u).tally⟩⟩

theorem UnitOk.of_idle {card : Nat → Card} {w : Sweep} (h : w.running = false) : UnitOk card w :=
  ⟨fun hr => absurd hr (by simp [h]), fun _ _ hr => absurd hr (by simp [h])⟩

/-- A unit that runs no TALLY need only have its cursor in its range. -/
theorem UnitOk.of_cursor {card : Nat → Card} {w : Sweep} (hcursor : w.running = true → w.cursorOk)
    (hkind : w.params.kind ≠ .tally) : UnitOk card w :=
  ⟨hcursor, fun _ _ _ hp => absurd (by rw [hp]; rfl) hkind⟩

/-! ### A card written -/

/-- Of a list without repetitions, one figure changed moves the sum by its change. -/
theorem sum_map_of_one_changed {l : List Nat} (hl : l.Nodup) {n : Nat} (hn : n ∈ l) {f g : Nat → Word64}
    (hfg : ∀ m, m ≠ n → g m = f m) : (l.map g).sum = (l.map f).sum + (g n - f n) := by
  have hrest : (l.erase n).map g = (l.erase n).map f :=
    List.map_congr_left fun m hm => hfg m (hl.mem_erase_iff.mp hm).1
  have hg := List.sum_map_erase g hn
  have hf := List.sum_map_erase f hn
  rw [← hg, ← hf, hrest]
  ring

/-- The contributions after one card record is written: moved by the change of its contribution when the range below the
cursor names its slot, and otherwise as before (R113). -/
theorem contributionsOf_written (card : Nat → Card) (n : Nat) (c : Card) (start cursor : Nat) :
    contributionsOf (fun m => if n = m then c else card m) start cursor =
      if start ≤ n ∧ n < cursor then (contributionsOf card start cursor).add (driftOf (card n) c)
      else contributionsOf card start cursor := by
  have hmem : n ∈ List.range' start (cursor - start) ↔ start ≤ n ∧ n < cursor := by
    rw [List.mem_range'_1]
    omega
  have hnodup : (List.range' start (cursor - start)).Nodup := List.nodup_range'
  split
  case isTrue hin =>
    have moved (figure : Drift → Word64) := sum_map_of_one_changed hnodup (hmem.mpr hin)
      (f := fun m => figure (card m).contribution) (g := fun m => figure (if n = m then c else card m).contribution)
      fun m hm => by rw [if_neg (Ne.symm hm)]
    simp only [if_true] at moved
    simp only [contributionsOf, Drift.add, driftOf, Drift.mk.injEq]
    exact ⟨moved Drift.value, moved Drift.held, moved Drift.count⟩
  case isFalse hout =>
    have same (figure : Drift → Word64) :
        (List.range' start (cursor - start)).map (fun m => figure (if n = m then c else card m).contribution) =
          (List.range' start (cursor - start)).map fun m => figure (card m).contribution :=
      List.map_congr_left fun m hm => by
        rw [if_neg fun e : n = m => hout (hmem.mp (e ▸ hm))]
    simp only [contributionsOf, same Drift.value, same Drift.held, same Drift.count]

/-- A TALLY whose cursor stands in its range has passed a slot when that lies between its start and its cursor. -/
theorem Sweep.hasTallied_iff {w : Sweep} {start stop : Nat} (hp : w.params = .tally start stop) (hr : w.running = true)
    (hc : w.cursorOk) (n : Nat) : w.hasTallied n = true ↔ start ≤ n ∧ n < w.cursor := by
  have hrange : start ≤ w.cursor ∧ w.cursor ≤ stop := by simpa only [Sweep.cursorOk, hp] using hc
  simp only [Sweep.hasTallied, hp, hr, Bool.true_and, Bool.and_eq_true, decide_eq_true_eq]
  omega

theorem Sweep.tallied_add (w : Sweep) (d : Drift) :
    Sweep.tallied { w with drift := w.drift.add d } = w.tallied.add d := by
  simp only [Sweep.tallied, Drift.add, add_assoc]

theorem Sweep.drifted_same (n : Nat) (d : Drift) (w : Sweep) :
    (w.drifted n d).running = w.running ∧ (w.drifted n d).params = w.params ∧ (w.drifted n d).cursor = w.cursor := by
  unfold Sweep.drifted
  split <;> exact ⟨rfl, rfl, rfl⟩

/-- A write of a card record and the drift it makes keep the law of a unit (R113). -/
theorem UnitOk.drifted {card : Nat → Card} {w : Sweep} (h : UnitOk card w) (n : Nat) (c : Card) :
    UnitOk (fun m => if n = m then c else card m) (w.drifted n (driftOf (card n) c)) := by
  obtain ⟨hrunning, hparams, hcursor⟩ := Sweep.drifted_same n (driftOf (card n) c) w
  refine ⟨fun hr => ?_, fun start stop hr hp => ?_⟩
  · have hc := h.cursor (hrunning ▸ hr)
    unfold Sweep.cursorOk at hc ⊢
    rw [hparams, hcursor]
    exact hc
  · rw [hrunning] at hr
    rw [hparams] at hp
    have hpassed := Sweep.hasTallied_iff hp hr (h.cursor hr) n
    rw [hcursor, contributionsOf_written, h.tally start stop hr hp, Sweep.drifted]
    by_cases hin : start ≤ n ∧ n < w.cursor
    · rw [if_pos hin, if_pos (hpassed.mpr hin), Sweep.tallied_add]
    · rw [if_neg hin, if_neg fun ht => hin (hpassed.mp ht)]

/-! ### The law of both units -/

theorem SweepsOk.of_same {s w : State} (h : SweepsOk s) (hcards : w.slotCard = s.slotCard)
    (hsweeps : w.sweep = s.sweep) : SweepsOk w := by
  rw [sweepsOk_iff] at h ⊢
  rw [hcards, hsweeps]
  exact h

theorem SweepsOk.setCard {s : State} (h : SweepsOk s) (ref : CardRef) (c : Card) : SweepsOk (s.setCard ref c) := by
  cases ref with
  | trial t => exact h.of_same rfl rfl
  | real n =>
    rw [sweepsOk_iff] at h ⊢
    intro u
    have hcards : (s.setSlotCard n c).slotCard = fun m => if n = m then c else s.slotCard m :=
      funext fun m => State.slotCard_setSlotCard s n m c
    change UnitOk (s.setSlotCard n c).slotCard ((s.setSlotCard n c).sweep u)
    rw [hcards, State.sweep_setSlotCard]
    exact (h u).drifted n c

theorem plainKept_sweepsOk : PlainKept SweepsOk where
  port _ _ _ _ h := h.of_same rfl rfl
  accounts _ _ _ h := h.of_same rfl rfl
  inFlight _ _ h := h.of_same rfl rfl
  lastGranted _ _ h := h.of_same rfl rfl
  clock _ _ h := h.of_same rfl rfl
  pending _ _ h := h.of_same rfl rfl

theorem storesKept_sweepsOk : StoresKept SweepsOk where
  card _ ref c h := h.setCard ref c
  hold _ _ _ h := h.of_same rfl rfl
  lists _ _ _ h := h.of_same rfl rfl
  count _ _ _ h := h.of_same rfl rfl
  report s ref m h := by
    rw [State.report_accounts]
    exact h.of_same rfl rfl
  trials _ _ h := h.of_same rfl rfl

/-- Of a state whose unit `u` is written the law asks that the written unit satisfies it. -/
theorem SweepsOk.modifySweep {s : State} (h : SweepsOk s) {u : UnitId} {f : Sweep → Sweep}
    (hu : UnitOk s.slotCard (f (s.sweep u))) : SweepsOk (s.modifySweep u f) := by
  rw [sweepsOk_iff] at h ⊢
  intro v
  change UnitOk s.slotCard _
  rw [State.sweep_modifySweep]
  split
  case isTrue => exact hu
  case isFalse => exact h v

/-- The end of a unit's sweep leaves the law to the other unit (R105). -/
theorem sweepsOk_endSweep {s : State} {u : UnitId} (h : ∀ v, u ≠ v → UnitOk s.slotCard (s.sweep v)) (reason : SweepReason)
    (slot : Option Nat) : SweepsOk (s.endSweep u reason slot) := by
  rw [sweepsOk_iff]
  intro v
  rw [State.sweep_endSweep, State.endSweep_rest]
  split
  case isTrue => exact .of_idle rfl
  case isFalse hv => exact h v hv

theorem SweepsOk.modified_endSweep {s : State} (h : SweepsOk s) (u : UnitId) (f : Sweep → Sweep) (reason : SweepReason)
    (slot : Option Nat) : SweepsOk ((s.modifySweep u f).endSweep u reason slot) := by
  refine sweepsOk_endSweep (fun v hv => ?_) reason slot
  rw [State.sweep_modifySweep, if_neg hv]
  exact (sweepsOk_iff s).mp h v

/-- A step moves its cursor within its range or ends its sweep (R104). -/
theorem SweepsOk.cursorMoved {s : State} (h : SweepsOk s) {u : UnitId} {f : Sweep → Sweep} {atEnd : Prop}
    [Decidable atEnd] (hu : ¬atEnd → UnitOk s.slotCard (f (s.sweep u))) :
    SweepsOk (if atEnd then (s.modifySweep u f).endSweep u .done none else s.modifySweep u f) := by
  split
  case isTrue => exact h.modified_endSweep u f _ _
  case isFalse hgoes => exact h.modifySweep (hu hgoes)

/-! ### Steps -/

theorem SweepsOk.unit {s : State} (h : SweepsOk s) (u : UnitId) : UnitOk s.slotCard (s.sweep u) :=
  (sweepsOk_iff s).mp h u

theorem SweepsOk.searchStep {s : State} (h : SweepsOk s) {u : UnitId} {start stop : Nat} {critA critB : Criterion}
    {limit : Nat} {skip : Bool} (hp : (s.sweep u).params = .search start stop critA critB limit skip) :
    SweepsOk (s.searchStep u stop critA critB limit skip) := by
  unfold State.searchStep
  dsimp only
  split
  case h_1 => exact h.modified_endSweep u _ _ _
  case h_2 => exact h.modified_endSweep u _ _ _
  all_goals
    split
    case isTrue => exact h.modified_endSweep u _ _ _
    case isFalse hstop =>
      split
      case isTrue => exact h.modified_endSweep u _ _ _
      case isFalse =>
        refine h.modifySweep (.of_cursor (fun hr => ?_) (by simp [hp, SweepParams.kind]))
        have hc := (h.unit u).cursor hr
        simp only [Sweep.cursorOk, hp] at hc ⊢
        omega

/-- The contributions below the next slot: those below this one and its own (R112). -/
theorem contributionsOf_succ (card : Nat → Card) {start cursor : Nat} (h : start ≤ cursor) :
    contributionsOf card start (cursor + 1) = (contributionsOf card start cursor).add (card cursor).contribution := by
  have hrange : List.range' start (cursor + 1 - start) = List.range' start (cursor - start) ++ [cursor] := by
    rw [Nat.succ_sub h, List.range'_1_concat, Nat.add_sub_cancel' h]
  simp only [contributionsOf, hrange, List.map_append, List.map_cons, List.map_nil, List.sum_append, List.sum_cons,
    List.sum_nil, add_zero, Drift.add]

theorem Card.contribution_count (c : Card) : c.contribution.count = BitVec.ofNat 64 c.tallyCount := by
  unfold Card.contribution Card.tallyCount
  cases c.state <;> rfl

theorem SweepsOk.tallyStep {s : State} (h : SweepsOk s) {u : UnitId} {start stop : Nat}
    (hp : (s.sweep u).params = .tally start stop) : SweepsOk (s.tallyStep u stop) := by
  refine h.cursorMoved fun hstop => ⟨fun hr => ?_, fun a b hr hp' => ?_⟩
  · have hc := (h.unit u).cursor hr
    simp only [Sweep.cursorOk, hp] at hc ⊢
    omega
  · obtain ⟨rfl, rfl⟩ : start = a ∧ stop = b := by simpa [hp] using hp'
    have hc := (h.unit u).cursor hr
    simp only [Sweep.cursorOk, hp] at hc
    have hlaw := (h.unit u).tally start stop hr hp
    rw [contributionsOf_succ _ hc.1, hlaw]
    simp only [Drift.add, Sweep.tallied, Card.contribution_count, BitVec.ofNat_add, Drift.mk.injEq]
    refine ⟨?_, ?_, ?_⟩ <;> ring

/-- A PURGE that goes on has its cursor in the pool (R116). -/
theorem SweepsOk.purgeMoved {s : State} (h : SweepsOk s) {u : UnitId} {owner : PortId} {till : Option TillId}
    (hp : (s.sweep u).params = .purge owner till) (next : Nat) :
    SweepsOk (if Config.holdRecords ≤ next then (s.modifySweep u fun w => { w with cursor := next }).endSweep u .done none
      else s.modifySweep u fun w => { w with cursor := next }) := by
  refine h.cursorMoved fun hgoes => .of_cursor (fun _ => ?_) (by simp [hp, SweepParams.kind])
  simp only [Sweep.cursorOk, hp]
  exact not_le.mp hgoes

/-- A change of a card leaves the parameters of every unit. -/
theorem DriftsFollow.params {s w : State} {ref : CardRef} (h : DriftsFollow s w ref) (u : UnitId) :
    (w.sweep u).params = (s.sweep u).params := by
  rw [h u]
  cases ref with
  | trial t => rfl
  | real n => exact (Sweep.drifted_same n _ _).2.1

theorem SweepsOk.purgeStep {s : State} (h : SweepsOk s) {u : UnitId} {owner : PortId} {till : Option TillId}
    (hp : (s.sweep u).params = .purge owner till) : SweepsOk (s.purgeStep u owner till) := by
  have moved := (holdMoved_freeHold s (s.sweep u).cursor).noteActivity (s.hold (s.sweep u).cursor).owner
    (s.hold (s.sweep u).cursor).till .release
  have freed := storesKept_sweepsOk.note _ (s.hold (s.sweep u).cursor).card (s.hold (s.sweep u).cursor).owner
    (s.hold (s.sweep u).cursor).till .release (storesKept_sweepsOk.freeHold s (s.sweep u).cursor h)
  have hparams := (moved.drifts.params u).trans hp
  refine SweepsOk.purgeMoved ?kept ?params _ (owner := owner) (till := till)
  case kept =>
    split
    case isFalse => exact h
    case isTrue =>
      exact freed.modifySweep (.of_cursor (freed.unit u).cursor (by simp [hparams, SweepParams.kind]))
  case params =>
    split
    case isFalse => exact hp
    case isTrue =>
      rw [State.sweep_modifySweep_self]
      exact hparams

/-- An ISSUE-RUN that goes on has its cursor at or before its end slot (R120). -/
theorem SweepsOk.issueRunMoved {s : State} (h : SweepsOk s) {u : UnitId} {start stop stride value next : Nat}
    (hp : (s.sweep u).params = .issueRun start stop stride value)
    (hstart : (s.sweep u).running = true → start ≤ next) :
    SweepsOk (if stop < next then (s.modifySweep u fun w => { w with cursor := next }).endSweep u .done none
      else s.modifySweep u fun w => { w with cursor := next }) := by
  refine h.cursorMoved fun hgoes => .of_cursor (fun hr => ?_) (by simp [hp, SweepParams.kind])
  simp only [Sweep.cursorOk, hp]
  exact ⟨hstart hr, not_lt.mp hgoes⟩

/-- The sweep units after a slot is issued. -/
theorem State.sweep_issueSlot (s : State) (slot value : Nat) (u : UnitId) :
    (s.issueSlot slot value).sweep u =
      (s.sweep u).drifted slot (driftOf (s.slotCard slot) { s.slotCard slot with state := .active, value := value }) := by
  rw [State.issueSlot, State.report_accounts]
  exact State.sweep_setSlotCard s _ _ u

theorem SweepsOk.issueRunStep {s : State} (h : SweepsOk s) {u : UnitId} {start stop stride value : Nat}
    (hp : (s.sweep u).params = .issueRun start stop stride value) : SweepsOk (s.issueRunStep u stop stride value) := by
  have hstart : (s.sweep u).running = true → start ≤ (s.sweep u).cursor + stride := fun hr => by
    have hc := (h.unit u).cursor hr
    simp only [Sweep.cursorOk, hp] at hc
    omega
  have issued := storesKept_sweepsOk.issueSlot s (s.sweep u).cursor value h
  obtain ⟨hrunning, hparams, -⟩ := Sweep.drifted_same (s.sweep u).cursor
    (driftOf (s.slotCard (s.sweep u).cursor)
      { s.slotCard (s.sweep u).cursor with state := .active, value := value }) (s.sweep u)
  rw [← State.sweep_issueSlot] at hrunning hparams
  refine SweepsOk.issueRunMoved ?kept ?params ?start (start := start) (stride := stride) (value := value)
  case kept =>
    split
    case isTrue =>
      exact issued.modifySweep (.of_cursor (issued.unit u).cursor (by simp [hparams, hp, SweepParams.kind]))
    case isFalse =>
      exact h.modifySweep (.of_cursor (h.unit u).cursor (by simp [hp, SweepParams.kind]))
  case params =>
    split
    case isTrue =>
      rw [State.sweep_modifySweep_self]
      exact hparams.trans hp
    case isFalse =>
      rw [State.sweep_modifySweep_self]
      exact hp
  case start =>
    split
    case isTrue =>
      rw [State.sweep_modifySweep_self]
      exact fun hr => hstart (hrunning.symm.trans hr)
    case isFalse =>
      rw [State.sweep_modifySweep_self]
      exact hstart

/-! ### Starts -/

/-- A unit as a start takes it satisfies its law when its cursor starts in its range (R103). -/
theorem unitOk_startedSweep (card : Nat → Card) (p : PortId) {params : SweepParams}
    (h : (startedSweep p params).cursorOk) : UnitOk card (startedSweep p params) := by
  refine ⟨fun _ => h, fun start stop _ hp => ?_⟩
  change params = .tally start stop at hp
  subst hp
  simp only [startedSweep, SweepParams.firstCursor, contributionsOf, Nat.sub_self, List.range'_zero, List.map_nil,
    List.sum_nil]
  rfl

theorem SweepsOk.startSweep {s : State} (h : SweepsOk s) (p : PortId) {params : SweepParams}
    (hc : (startedSweep p params).cursorOk) : SweepsOk (startSweep p params s).state := by
  unfold Machine.startSweep
  split
  case h_1 => exact h
  case h_2 u _ => exact h.modifySweep (u := u) (f := fun _ => startedSweep p params) (unitOk_startedSweep _ p hc)

theorem cursorOk_of_slotRange {start stop : Nat} (h : slotRange start stop = true) : start ≤ start ∧ start ≤ stop := by
  simp only [slotRange, Bool.and_eq_true, decide_eq_true_eq] at h
  omega

theorem sweepsKept_sweepsOk : SweepsKept SweepsOk fun r => r.inRange = true where
  endSweep s u reason slot h := sweepsOk_endSweep (fun v _ => h.unit v) reason slot
  searchStep _ _ _ _ _ _ _ _ h hp := h.searchStep hp
  tallyStep _ _ _ _ h hp := h.tallyStep hp
  purgeStep _ _ _ _ h hp := h.purgeStep hp
  issueRunStep _ _ _ _ _ _ h hp := h.issueRunStep hp
  search p start stop critA critB limit skip s hr h := by
    simp only [Request.inRange, Bool.and_eq_true] at hr
    exact h.startSweep p (cursorOk_of_slotRange hr.1.1.1)
  tally p start stop s hr h := h.startSweep p (cursorOk_of_slotRange hr)
  purge p owner till s h := h.startSweep p (by decide : 0 < Config.holdRecords)
  issueRun p start stop stride value s hr h := by
    simp only [Request.inRange, Bool.and_eq_true] at hr
    unfold startIssueRun
    split
    case isTrue => exact h.startSweep p (cursorOk_of_slotRange hr.1.1.1)
    case isFalse => exact h

/-! ### Every step -/

theorem State.sweep_resetLine (s : State) (u : UnitId) : s.resetLine.sweep u = { s.sweep u with running := false } := by
  simp [State.sweep, State.resetLine, mapVec_getElem]

theorem State.sweep_reset (u : UnitId) : State.reset.sweep u = .cleared := by
  simp [State.sweep, State.reset]

theorem sweepsOk_of_idle {s : State} (h : ∀ u, (s.sweep u).running = false) : SweepsOk s :=
  (sweepsOk_iff s).mpr fun u => .of_idle (h u)

theorem boardKept_sweepsOk : BoardKept SweepsOk where
  powerOn _ _ := sweepsOk_of_idle fun u => congrArg Sweep.running (State.sweep_reset u)
  resetLine s _ := sweepsOk_of_idle fun u => congrArg Sweep.running (s.sweep_resetLine u)
  release _ _ h := h.of_same rfl rfl

/-- Settles O59: a write of a card moves the contributions and the drifts alike, a TALLY step takes its slot into both
sides, and every other step of a sweep moves its cursor within its range or ends it. -/
theorem stepKeepsTallies : Obligations.StepKeepsTallies := by
  intro s t hports hsweeps hstep
  have ops : OpsKept SweepsOk fun r => r.inRange = true :=
    opsKept_of_writes plainKept_sweepsOk storesKept_sweepsOk (fun _ _ _ h => h.of_same rfl rfl)
      (fun _ _ _ _ h => writeSeries_keeps h fun _ _ => h.of_same rfl rfl) sweepsKept_sweepsOk
  exact step_keeps ops boardKept_sweepsOk s t (fun p => (hports p).contents) hsweeps hstep

end Sys2Proof.Machine
end

section
/-! PROOFS. The rows a step does not take: a grant row that is not the ring's choice changes nothing, no command but those
of the board moves RESET_N, and while RESET_N is low nothing is granted, received, answered or sent. -/

namespace Sys2Proof.Machine

/-! ### The front command and the rows not granted -/

/-- Settles O1: both clauses are the two branches of `step`. -/
theorem stepRunsTheFrontCommand : Obligations.StepRunsTheFrontCommand := by
  refine ⟨fun c s => rfl, fun s hs => ?_⟩
  simp only [step, hs]

/-- A step of a sweep that is not the next grant's row changes nothing (R104). -/
theorem nextSweep_other_kind {s : State} {c : Instr} (hc : s.nextRow ≠ some c) {u : UnitId}
    (hu : s.nextSweep = some u) : (s.sweep u).params.row ≠ c :=
  fun h => hc (by rw [nextSweep_nextRow hu, h])

/-- Settles O4: a row of the expiry unit or of a sweep asks for its own claimant, and every other grant row for its own
request. -/
theorem ungrantedRowChangesNothing : Obligations.UngrantedRowChangesNothing := by
  intro s c hc hrow
  simp only [grantRows, List.mem_cons, List.not_mem_nil, or_false] at hc
  rcases hc with rfl | rfl | rfl | rfl | rfl | hc
  case inl =>
    change execLapse s = _
    unfold execLapse
    split
    case h_1 hg => exact absurd (by simp [State.nextRow, hg]) hrow
    case h_2 => rfl
  case inr.inl =>
    change execSearchStep s = _
    unfold execSearchStep
    split
    case h_1 => rfl
    case h_2 u hu =>
      split
      case h_1 hp => exact absurd (by rw [hp]; rfl) (nextSweep_other_kind hrow hu)
      case h_2 => rfl
  case inr.inr.inl =>
    change execTallyStep s = _
    unfold execTallyStep
    split
    case h_1 => rfl
    case h_2 u hu =>
      split
      case h_1 hp => exact absurd (by rw [hp]; rfl) (nextSweep_other_kind hrow hu)
      case h_2 => rfl
  case inr.inr.inr.inl =>
    change execPurgeStep s = _
    unfold execPurgeStep
    split
    case h_1 => rfl
    case h_2 u hu =>
      split
      case h_1 hp => exact absurd (by rw [hp]; rfl) (nextSweep_other_kind hrow hu)
      case h_2 => rfl
  case inr.inr.inr.inr.inl =>
    change execIssueRunStep s = _
    unfold execIssueRunStep
    split
    case h_1 => rfl
    case h_2 u hu =>
      split
      case h_1 hp => exact absurd (by rw [hp]; rfl) (nextSweep_other_kind hrow hu)
      case h_2 => rfl
  case inr.inr.inr.inr.inr =>
    rcases hc with rfl | rfl | rfl | rfl | rfl | rfl | rfl | rfl | rfl | rfl | rfl | rfl | rfl | rfl | rfl | rfl | rfl |
      rfl | rfl | rfl | rfl | rfl | rfl | rfl | rfl | rfl | rfl | rfl | rfl | rfl | rfl
    all_goals
      refine congrArg Host.Outcome.next (State.runGrant_of_other_row s _ _ hrow fun p r hr => ?_)
      split
      · exact absurd rfl hr
      · rfl

/-! ### The level of RESET_N -/

theorem plainKept_resetLow (low : Bool) : PlainKept fun s => s.resetLow = low where
  port _ _ _ _ h := h
  accounts _ _ _ h := h
  inFlight _ _ h := h
  lastGranted _ _ h := h
  clock _ _ h := h
  pending _ _ h := h

theorem storesKept_resetLow (low : Bool) : StoresKept fun s => s.resetLow = low where
  card _ ref _ h := by cases ref <;> exact h
  hold _ _ _ h := h
  lists _ _ _ h := h
  count _ _ _ h := h
  report _ ref _ h := by cases ref <;> exact h
  trials _ _ h := h

/-- No command but power-on and the edges of RESET_N moves its level. -/
theorem resetLow_exec {c : Instr} (hc : c ∉ boardRows) {s t : State} (h : exec c s = .next t) :
    t.resetLow = s.resetLow := by
  have I := plainKept_resetLow s.resetLow
  have K := storesKept_resetLow s.resetLow
  have sweeps := sweepsKept_of_writes I.notify (fun _ _ _ h => h) K fun _ => True
  have ops := opsKept_of_writes I K (fun _ _ _ h => h)
    (fun _ _ _ _ h => writeSeries_keeps (P := fun w => w.resetLow = s.resetLow) h fun _ _ => h) sweeps
  exact exec_keeps_inside ops c hc s t (fun _ _ _ => trivial) rfl h

/-! ### A still state -/

/-- Nothing is queued, received, sent, granted, held, swept or pending: what RESET_N leaves (R35, R163). -/
structure Still (s : State) : Prop where
  ports : ∀ p, (s.port p).requests = [] ∧ (s.port p).answers = [] ∧ (s.port p).notices = [] ∧
    (s.port p).receiver = .hunt ∧ (s.port p).sending = none
  inFlight : s.inFlight = none
  expiry : s.expiry = []
  sweeps : ∀ u, (s.sweep u).running = false
  close : s.accounts.close = .opened

theorem Still.claims {s : State} (h : Still s) (c : Claimant) : s.claims c = false := by
  cases c with
  | port p => simp only [State.claims, (h.ports p).1]
  | expiry => simp only [State.claims, State.headDue, h.expiry]
  | sweep u => exact h.sweeps u

theorem Still.nextGrant {s : State} (h : Still s) : s.nextGrant = none := by
  simp [State.nextGrant, h.inFlight, h.claims]

theorem quietInReset_iff (s : State) : QuietInReset s ↔ (s.resetLow = true → Still s) := by
  constructor
  · intro h hlow
    obtain ⟨hflight, hexpiry, -⟩ := h.engine hlow
    refine ⟨fun p => ?_, hflight, hexpiry, h.sweeps hlow, h.close hlow⟩
    obtain ⟨h1, h2, h3, h4, h5, -⟩ := h.ports hlow p
    exact ⟨h1, h2, h3, h4, h5⟩
  · intro h
    refine ⟨fun hlow p => ?_, fun hlow => ⟨(h hlow).inFlight, (h hlow).expiry, (h hlow).nextGrant⟩,
      fun hlow => (h hlow).sweeps, fun hlow => (h hlow).close⟩
    obtain ⟨h1, h2, h3, h4, h5⟩ := (h hlow).ports p
    exact ⟨h1, h2, h3, h4, h5, by simp [State.waitLevel, hlow], by simp [State.attnLevel, hlow]⟩

theorem quietInReset_of_high {s : State} (h : s.resetLow = false) : QuietInReset s :=
  (quietInReset_iff s).mpr fun hlow => by simp [h] at hlow

theorem Still.of_clock {s : State} (h : Still s) (clock : Clock) : Still { s with clock := clock } :=
  ⟨h.ports, h.inFlight, h.expiry, h.sweeps, h.close⟩

theorem Still.windowCheck {s : State} (h : Still s) : s.windowCheck = s := by
  simp only [State.windowCheck, h.close]

theorem Still.secondEvent {s : State} (h : Still s) : Still s.secondEvent := by
  have timed := h.of_clock { s.clock with time := if s.clock.time < Config.maxTime then s.clock.time + 1 else s.clock.time }
  change Still (State.windowCheck _)
  exact timed.windowCheck.symm ▸ timed

theorem Still.answerLocal {s : State} (h : Still s) (p : PortId) (select : Request → Option (State → State × Answer)) :
    s.answerLocal p select = s := by
  simp only [State.answerLocal, (h.ports p).1]

/-- A grant row finds nothing to grant in a still state. -/
theorem Still.grantRow {s : State} (h : Still s) {c : Instr} (hc : c ∈ grantRows) : exec c s = .next s :=
  ungrantedRowChangesNothing s c hc (by simp [State.nextRow, h.nextGrant])

theorem State.receiveByte_of_low {s : State} (h : s.resetLow = true) (p : PortId) (b : Byte) : s.receiveByte p b = s := by
  simp only [State.receiveByte, h, if_true]

/-- An ANSWER_SENT at an idle transmitter changes nothing. -/
theorem Still.answerSent {s : State} (h : Still s) (p : PortId) : Still (s.modifyPort p fun x => { x with sending := none }) := by
  refine ⟨fun q => ?_, h.inFlight, h.expiry, h.sweeps, h.close⟩
  rw [State.port_modifyPort]
  split
  case isTrue => exact ⟨(h.ports p).1, (h.ports p).2.1, (h.ports p).2.2.1, (h.ports p).2.2.2.1, rfl⟩
  case isFalse => exact h.ports q

/-- While RESET_N is low, every command but power-on and the edges of RESET_N leaves a still state still. -/
theorem Still.exec {s t : State} (h : Still s) (hlow : s.resetLow = true) {c : Instr} (hc : c ∉ boardRows)
    (he : exec c s = .next t) : Still t := by
  by_cases hgrant : c ∈ grantRows
  · rw [h.grantRow hgrant] at he
    cases he
    exact h
  have byte (p : PortId) (b : Byte) (hr : Host.Outcome.next (s.receiveByte p b) = (.next t : Host.Outcome State Fault Refusal)) :
      Still t := by
    rw [State.receiveByte_of_low hlow] at hr
    cases hr
    exact h
  have answered (p : PortId) (select : Request → Option (State → State × Answer))
      (hr : Host.Outcome.next (s.answerLocal p select) = (.next t : Host.Outcome State Fault Refusal)) : Still t := by
    rw [h.answerLocal] at hr
    cases hr
    exact h
  cases c
  case powerOn a b => exact absurd (by cases a <;> cases b <;> decide) hc
  case resetNAssert => exact absurd (by decide) hc
  case resetNRelease a b => exact absurd (by cases a <;> cases b <;> decide) hc
  case tickSecond =>
    simp only [Machine.exec, execTickSecond, Host.Outcome.next.injEq] at he
    subst he
    split
    case h_1 => exact h.secondEvent
    case h_2 => exact h
  case dividerSecond =>
    simp only [Machine.exec, execDividerSecond, Host.Outcome.next.injEq] at he
    subst he
    split
    case h_1 => exact h
    case h_2 => exact (h.of_clock _).secondEvent
  case windowExpiry =>
    simp only [Machine.exec, execWindowExpiry, h.windowCheck, Host.Outcome.next.injEq] at he
    exact he ▸ h
  case grantCompletion =>
    simp only [Machine.exec, execGrantCompletion, h.inFlight, Host.Outcome.next.injEq] at he
    exact he ▸ h
  case frameReceived p b => exact byte p b he
  case idle p b => exact byte p b he
  case badLength p b => exact byte p b he
  case idleRecovery p b => exact byte p b he
  case byteReceived p b => exact byte p b he
  case linkTimeout p gap =>
    simp only [Machine.exec, execLinkTimeout, hlow, true_or, if_true, Host.Outcome.next.injEq] at he
    exact he ▸ h
  case answerTransmitStart p =>
    simp only [Machine.exec, execAnswerTransmitStart, Host.Outcome.next.injEq] at he
    subst he
    split
    case h_1 ha => simp [(h.ports p).2.1] at ha
    case h_2 => exact h
  case answerSent p =>
    cases he
    exact h.answerSent p
  case collect p => exact answered p _ he
  case status p => exact answered p _ he
  case portStatus p => exact answered p _ he
  case ident p => exact answered p _ he
  all_goals exact absurd (by decide) hgrant

/-! ### The edges of RESET_N -/

/-- An assertion of RESET_N leaves the close OPEN (R130, R131). -/
theorem State.close_resetLine (s : State) : s.resetLine.accounts.close = .opened := by
  change (s.dropClose none).accounts.close = .opened
  rw [dropClose_none]
  dsimp only
  split
  case h_1 hc => exact hc
  case h_2 => rfl

theorem State.port_resetLine (s : State) (p : PortId) : s.resetLine.port p = (s.port p).afterReset := by
  simp [State.port, State.resetLine, mapVec_getElem]

theorem still_resetLine (s : State) : Still s.resetLine where
  ports p := by rw [State.port_resetLine]; exact ⟨rfl, rfl, rfl, rfl, rfl⟩
  inFlight := rfl
  expiry := rfl
  sweeps u := by rw [State.sweep_resetLine]
  close := s.close_resetLine

/-- Power-on and the release leave RESET_N high; the assertion leaves a still state. -/
theorem quietInReset_board {c : Instr} (hc : c ∈ boardRows) {s t : State} (h : QuietInReset s)
    (he : exec c s = .next t) : QuietInReset t := by
  cases c
  case powerOn a b =>
    cases he
    exact quietInReset_of_high rfl
  case resetNAssert =>
    simp only [exec, execResetNAssert, Host.Outcome.next.injEq] at he
    subst he
    split
    case isTrue => exact h
    case isFalse => exact (quietInReset_iff _).mpr fun _ => still_resetLine s
  case resetNRelease a b =>
    simp only [exec, execResetNRelease, Host.Outcome.next.injEq] at he
    subst he
    split
    case isTrue => exact quietInReset_of_high rfl
    case isFalse => exact h
  all_goals simp [boardRows] at hc

/-- Settles O60: RESET_N falls to a still state, which every command leaves still until it rises again. -/
theorem stepKeepsResetQuiet : Obligations.StepKeepsResetQuiet := by
  intro s t h hstep
  unfold step at hstep
  split at hstep
  case h_1 =>
    cases hstep
    have hlevel : s.refclkEdge.resetLow = s.resetLow := by
      have I := plainKept_resetLow s.resetLow
      unfold State.refclkEdge
      split
      case h_1 => rfl
      case h_2 =>
        split
        case isTrue => exact I.windowCheck _ rfl
        case isFalse => rfl
    refine (quietInReset_iff _).mpr fun hlow => ?_
    have still := (quietInReset_iff s).mp h (hlevel ▸ hlow)
    unfold State.refclkEdge
    split
    case h_1 => exact still
    case h_2 =>
      split
      case isTrue => exact (still.of_clock _).secondEvent
      case isFalse => exact still.of_clock _
  case h_2 c rest _ =>
    have h' : QuietInReset { s with pending := rest } :=
      (quietInReset_iff _).mpr fun hlow =>
        have still := (quietInReset_iff s).mp h hlow
        ⟨still.ports, still.inFlight, still.expiry, still.sweeps, still.close⟩
    by_cases hc : c ∈ boardRows
    · exact quietInReset_board hc h' hstep
    · refine (quietInReset_iff t).mpr fun hlow => ?_
      rw [resetLow_exec hc hstep] at hlow
      exact ((quietInReset_iff _).mp h' hlow).exec hlow hc hstep

end Sys2Proof.Machine
end

section
/-! PROOFS. The grants of ports: whose turn it is, what the start of a grant does, which work each request is, the grant of
a request the role does not permit, and the completion. -/

namespace Sys2Proof.Machine

/-! ### The work of a request -/

/-- What executing a request does; a port-local request is never granted (R29). -/
def Request.work (p : PortId) : Request → State → Done
  | .probe code => probeCard p code
  | .reserve code till asked flag long => reserveCard p code till asked flag long
  | .renew tag => renewTag p tag
  | .capture tag final till => captureTag p tag final till
  | .release tag => releaseTag p tag
  | .redeem code till asked flag => redeemCode p code till asked flag
  | .load code till asked => loadCode p code till asked
  | .collect | .status | .portStatus _ | .ident => fun s => s.only (.plain .notPermitted)
  | .setSeries e f => writeSeries e f
  | .readSeries e => fun s => s.only (.seriesRecord e (s.entry e))
  | .issue address value => issueCard address value
  | .block address => moveState address .active .blocked
  | .unblock address => moveState address .blocked .active
  | .retire address => retireCard address
  | .editCard address editValue editUses newValue newUses => editCardFields address editValue editUses newValue newUses
  | .readCard address => readCardRecord address
  | .readHold i => fun s => s.only (.holdRecord i (s.hold i) (s.holdEntry (s.hold i)))
  | .setTime t => writeTime t
  | .search start stop critA critB limit skip => startSweep p (.search start stop critA critB limit skip)
  | .tally start stop => startSweep p (.tally start stop)
  | .purge owner till => startSweep p (.purge owner till)
  | .issueRun start stop stride value => startIssueRun p start stop stride value
  | .cancelSweep u => cancelUnit u
  | .closeDay => openClose p
  | .confirmClose => confirmPending p
  | .dayReport day => reportDay day
  | .accounts => readAccounts
  | .trialSet write values => setTrial write values
  | .setPort target role mode => setPortMode target role mode
  | .setTiming target timeout recovery window base divisor => setLineTiming target timeout recovery window base divisor
  | .resetPort target => fun s => { state := s, answer := .plain .done, tail := .reset target }
  | .restorePort target => restoreTarget target

/-- The row of a request runs a grant whose meaning selects the request's work, and no request of another row. -/
theorem exec_row {r : Request} {c : Instr} (h : r.row = some c) (s : State) :
    ∃ select : PortId → Request → Option (State → Done), exec c s = .next (s.runGrant select) ∧
      (∀ p, select p r = some (r.work p)) := by
  cases r
  case collect | status | portStatus | ident => cases h
  all_goals
    cases h
    exact ⟨_, rfl, fun _ => rfl⟩

/-- The row of the ring's choice runs the work of the request on the state the request meets (R30, R31). -/
theorem exec_of_granted {s s1 : State} {p : PortId} {tag : Byte} {r : Request} {c : Instr} (h : Granted s p tag r s1)
    (hc : r.row = some c) :
    exec c s = .next (((r.work p s1).state.answering s p tag (r.work p s1).answer).finish (r.work p s1).tail) := by
  obtain ⟨select, hexec, hselect⟩ := exec_row hc s
  rw [hexec, State.runGrant_of_granted h (hselect p)]

/-- The same for work that ends in one state and one answer, with nothing to follow. -/
theorem exec_of_only {s s1 w : State} {p : PortId} {tag : Byte} {r : Request} {c : Instr} {a : Answer}
    (h : Granted s p tag r s1) (hc : r.row = some c) (hw : r.work p s1 = w.only a) :
    exec c s = .next (w.answering s p tag a) := by
  rw [exec_of_granted h hc, hw]
  rfl

/-! ### Whose turn it is -/

theorem State.claims_port_iff (s : State) (p : PortId) : s.claims (.port p) = true ↔
    ∃ q rest, (s.port p).requests = q :: rest ∧ q.request.kind ∉ [Kind.collect, .status, .portStatus, .ident] := by
  rcases h : (s.port p).requests with _ | ⟨q, rest⟩
  · simp [State.claims, h]
  · have hlocal := portLocal_iff q.request
    simp only [State.claims, h, Bool.not_eq_true', List.cons.injEq]
    rw [← Bool.not_eq_true, hlocal]
    constructor
    · exact fun hq => ⟨q, rest, ⟨rfl, rfl⟩, hq⟩
    · rintro ⟨_, _, ⟨rfl, rfl⟩, hq⟩
      exact hq

theorem State.claims_expiry_iff (s : State) : s.claims .expiry = true ↔
    ∃ i rest, s.expiry = i :: rest ∧ (s.hold i).deadline ≤ s.clock.time := by
  rcases h : s.expiry with _ | ⟨i, rest⟩ <;> simp [State.claims, State.headDue, h]

/-- A free engine grants the claimant with the fewest positions before its own (R30). -/
theorem State.nextGrant_iff (s : State) (c : Claimant) : s.nextGrant = some c ↔
    s.inFlight = none ∧ s.claims c = true ∧ ∀ d, s.claims d = true → s.turn c ≤ s.turn d := by
  unfold State.nextGrant
  split
  case h_1 f hf => simp [hf]
  case h_2 hf =>
    simp only [hf, true_and, Option.map_eq_some_iff]
    constructor
    · rintro ⟨pos, hfind, rfl⟩
      obtain ⟨hclaims, hleast⟩ := (find_ring _ s.lastGranted pos).mp hfind
      refine ⟨hclaims, fun d hd => ?_⟩
      have hd' : s.claims (claimantAt d.position) = true := (claimantAt_position d).symm ▸ hd
      have := hleast d.position hd'
      rw [State.turn, position_claimantAt, State.turn]
      exact this
    · rintro ⟨hclaims, hleast⟩
      refine ⟨c.position, (find_ring _ s.lastGranted _).mpr ⟨?_, fun d hd => ?_⟩, claimantAt_position c⟩
      · rw [claimantAt_position]
        exact hclaims
      · have := hleast _ hd
        rw [State.turn, State.turn, position_claimantAt] at this
        exact this

theorem State.nextRequest_iff (s : State) (p : PortId) (q : QueuedRequest) : s.nextRequest = some (p, q) ↔
    s.nextGrant = some (.port p) ∧ ∃ rest, (s.port p).requests = q :: rest := by
  unfold State.nextRequest
  split
  case h_1 p' hg =>
    rw [hg]
    rcases h : (s.port p').requests with _ | ⟨q', rest⟩
    · simp only [List.head?_nil, Option.map_none, reduceCtorEq, Option.some.injEq, Claimant.port.injEq, false_iff,
        not_and, not_exists]
      rintro rfl rest
      simp [h]
    · simp only [List.head?_cons, Option.map_some, Option.some.injEq, Prod.mk.injEq, Claimant.port.injEq]
      constructor
      · rintro ⟨rfl, rfl⟩
        exact ⟨rfl, rest, h⟩
      · rintro ⟨rfl, _, hq⟩
        rw [h] at hq
        exact ⟨rfl, (List.cons.inj hq).1⟩
  case h_2 hg =>
    simp only [reduceCtorEq, false_iff, not_and]
    exact fun h => absurd h (hg p)

theorem State.nextSweep_iff (s : State) (u : UnitId) : s.nextSweep = some u ↔ s.nextGrant = some (.sweep u) := by
  unfold State.nextSweep
  split
  case h_1 v hg => simp [hg]
  case h_2 hg =>
    simp only [reduceCtorEq, false_iff]
    exact hg u

/-- Settles O2: each claim by its definition, and the ring's choice as the claimant with the fewest turns before it. -/
theorem ringGrantsTheNextClaimant : Obligations.RingGrantsTheNextClaimant := fun s =>
  ⟨s.claims_port_iff, s.claims_expiry_iff, fun _ => Iff.rfl, s.nextGrant_iff, s.nextRequest_iff, s.nextSweep_iff⟩

/-! ### The start of a grant -/

/-- The start of a grant before its drop: position and queue (R30, R31). -/
def State.popped (s : State) (p : PortId) : State :=
  { s with lastGranted := (Claimant.port p).position }.popRequest p

theorem State.startGrant_kept {s : State} {p : PortId} {r : Request}
    (h : r.kind = .confirmClose ∨ s.accounts.close.owner? ≠ some p) : s.startGrant p r = s.popped p := by
  unfold State.startGrant
  dsimp only
  split
  case isTrue => rfl
  case isFalse hk => exact State.dropCloseOf_of_not_owner (s := s.popped p) (h.resolve_left hk) _

theorem State.startGrant_drops {s : State} {p : PortId} {r : Request} (hk : r.kind ≠ .confirmClose)
    (h : s.accounts.close.owner? = some p) :
    s.startGrant p r =
      ({ s.popped p with accounts := s.accounts.merged } : State).notify p (.closeDropped s.accounts.day .strayRequest) := by
  unfold State.startGrant
  dsimp only
  rw [if_neg hk]
  exact State.dropCloseOf_of_owner (s := s.popped p) h _

/-- Settles O3: the two branches of the start are the kept close and the dropped one, each a write of one port. -/
theorem grantStartDropsAStrayClose : Obligations.GrantStartDropsAStrayClose := by
  intro s p r t popped
  have hpopped : OnePort s (s.popped p) p popped := .of_ports rfl
  by_cases hdrops : r.kind ≠ .confirmClose ∧ s.accounts.close.owner? = some p
  · obtain ⟨hk, howner⟩ := hdrops
    have ht : t = _ := State.startGrant_drops hk howner
    have dropped := onePort_notify { s.popped p with accounts := s.accounts.merged } p
      (.closeDropped s.accounts.day .strayRequest)
    refine ⟨by rw [ht]; rfl, by rw [ht]; rfl, fun h => absurd h (by simp [hk, howner]), fun _ _ => ⟨?_, by rw [ht]; rfl⟩⟩
    rw [ht]
    refine ⟨dropped.written.trans ?_, fun q hq => (dropped.others q hq).trans (hpopped.others q hq)⟩
    rw [← hpopped.written]
    rfl
  · have hkept : r.kind = .confirmClose ∨ s.accounts.close.owner? ≠ some p := by
      by_cases hk : r.kind = .confirmClose
      · exact .inl hk
      · exact .inr fun h => hdrops ⟨hk, h⟩
    have ht : t = _ := State.startGrant_kept hkept
    exact ⟨by rw [ht]; rfl, by rw [ht]; rfl, fun _ => ⟨ht ▸ hpopped, by rw [ht]; rfl⟩,
      fun hk howner => absurd ⟨hk, howner⟩ hdrops⟩

/-! ### Permission and completion -/

theorem permitted_iff {role : Role} {p : PortId} {r : Request} (h : r.row ≠ none) : r.permitted role p = true ↔
    if r.kind ∈ [Kind.reserve, .renew, .capture, .release, .redeem, .load] then role = .till
    else if r.kind = .probe then True
    else role = .office := by
  cases r
  case collect | status | portStatus | ident => exact absurd rfl h
  all_goals cases role <;> simp [Request.permitted, Request.kind, Kind.permitted]

/-- Settles O5: the role table request by request, and the grant that runs no work. -/
theorem grantOfUnpermittedRequest : Obligations.GrantOfUnpermittedRequest := by
  refine ⟨fun role p r h => permitted_iff h, fun s p tag r c hnext hrow hp => ?_⟩
  obtain ⟨select, hexec, hselect⟩ := exec_row hrow s
  rw [hexec, State.runGrant_of_unpermitted hnext (by rw [State.startGrant_role]; exact hp) (hselect p)]

/-- Settles O6: the three branches of the completion. -/
theorem grantCompletionHandsTheAnswerOver : Obligations.GrantCompletionHandsTheAnswerOver := by
  intro s
  refine ⟨fun h => ?_, fun f h => ⟨_, rfl, ?_⟩⟩
  · change execGrantCompletion s = _
    simp only [execGrantCompletion, h]
  · simp only [h]
    cases hd : f.discarded with
    | true => exact ⟨rfl, rfl, fun _ _ => rfl⟩
    | false => exact ⟨rfl, .of_ports rfl⟩

end Sys2Proof.Machine
end

section
/-! PROOFS. Till requests: the refusals of tags and of sales in their order, and the accepted RELEASE. -/

namespace Sys2Proof.Machine

/-! ### Tags -/

/-- The record at index `i` is the open hold of generation `g` (R47). -/
abbrev State.namesHold (s : State) (i : Nat) (g : BitVec 4) : Prop :=
  (s.hold i).isOpen = true ∧ (s.hold i).generation = g

theorem State.matchTag_matched {s : State} {p : PortId} {i : Nat} {g : BitVec 4} (hi : i < 4096) (hnamed : s.namesHold i g)
    (howner : (s.hold i).owner = p) : s.matchTag p (holdTag i g) = .matched i := by
  rw [State.matchTag_holdTag s p hi, if_pos hnamed, if_pos howner]

theorem State.matchTag_notYours {s : State} {p : PortId} {i : Nat} {g : BitVec 4} (hi : i < 4096) (hnamed : s.namesHold i g)
    (howner : (s.hold i).owner ≠ p) : s.matchTag p (holdTag i g) = .notYours := by
  rw [State.matchTag_holdTag s p hi, if_pos hnamed, if_neg howner]

theorem State.matchTag_gone {s : State} (p : PortId) {i : Nat} {g : BitVec 4} (hi : i < 4096) (hnamed : ¬s.namesHold i g) :
    s.matchTag p (holdTag i g) = .gone := by
  rw [State.matchTag_holdTag s p hi]
  exact if_neg hnamed

theorem renewTag_refused {s : State} {p : PortId} {name : HoldTag} {i : Nat} (hmatch : s.matchTag p name = .matched i)
    (hlimit : (s.rulesOf (s.hold i).card).renewLimit ≤ (s.hold i).renewals) :
    renewTag p name s = s.only (.plain .renewLimit) := by
  simp only [renewTag, hmatch, if_pos hlimit]

theorem captureTag_refused {s : State} {p : PortId} {name : HoldTag} {i final : Nat} (till : TillId)
    (hmatch : s.matchTag p name = .matched i)
    (hshort : (s.hold i).amount < final ∧ (s.card (s.hold i).card).available < final - (s.hold i).amount) :
    captureTag p name final till s = s.only (.short (s.hold i).amount (s.card (s.hold i).card).available) := by
  simp only [captureTag, hmatch, if_pos hshort]

/-- Settles O29: the work of each request at each result of the tag's match, and at the check after it. -/
theorem tagsAreRefused : Obligations.TagsAreRefused := by
  intro s s1 p tag i g final till hi name h named refuses
  have gone (hn : ¬named) : s1.matchTag p name = .gone := State.matchTag_gone p hi hn
  have notYours (hn : named) (ho : h.owner ≠ p) : s1.matchTag p name = .notYours := State.matchTag_notYours hi hn ho
  have matched (hn : named) (ho : h.owner = p) : s1.matchTag p name = .matched i := State.matchTag_matched hi hn ho
  refine ⟨fun hgrant => ?renew, fun hgrant => ?capture, fun hgrant => ?release⟩
  case renew =>
    refine ⟨fun hn => exec_of_only hgrant rfl ?_, fun hn ho => exec_of_only hgrant rfl ?_, fun hn ho => ⟨?_, ?_⟩⟩
    · simp only [Request.work, renewTag, gone hn]
    · simp only [Request.work, renewTag, notYours hn ho]
    · intro n hcard
      have hlimit : (s1.rulesOf h.card).renewLimit ≤ h.renewals := by
        rw [hcard]
        exact Nat.zero_le _
      exact exec_of_only hgrant rfl (renewTag_refused (matched hn ho) hlimit)
    · intro slot e hcard hentry hreached
      have hlimit : (s1.rulesOf h.card).renewLimit ≤ h.renewals := by
        rw [hcard, State.rulesOf_real hentry]
        exact hreached
      exact exec_of_only hgrant rfl (renewTag_refused (matched hn ho) hlimit)
  case capture =>
    refine ⟨fun hn => exec_of_only hgrant rfl ?_, fun hn ho => exec_of_only hgrant rfl ?_, fun hn ho habove hshort => ?_⟩
    · simp only [Request.work, captureTag, gone hn]
    · simp only [Request.work, captureTag, notYours hn ho]
    · exact exec_of_only hgrant rfl (captureTag_refused till (matched hn ho) ⟨habove, hshort⟩)
  case release =>
    refine ⟨fun hn => exec_of_only hgrant rfl ?_, fun hn ho => exec_of_only hgrant rfl ?_⟩
    · simp only [Request.work, releaseTag, gone hn]
    · simp only [Request.work, releaseTag, notYours hn ho]

/-! ### RELEASE -/

/-- The writes of an accepted RELEASE: the hold freed and last activity RELEASE (R73). -/
def State.released (s : State) (i : Nat) (p : PortId) : State :=
  (s.freeHold i).noteActivity (s.hold i).card p (s.hold i).till .release

theorem releaseTag_matched {s : State} {p : PortId} {name : HoldTag} {i : Nat} (hmatch : s.matchTag p name = .matched i) :
    releaseTag p name s = (s.released i p).only (.released (s.hold i).amount
      ((s.card (s.hold i).card).value - ((s.card (s.hold i).card).held - (s.hold i).amount))) := by
  have card := ((holdMoved_freeHold s i).noteActivity p (s.hold i).till .release).card.written
  simp only [releaseTag, hmatch, State.released, card, Card.available]

/-- Settles O32: the tag matches, so the row answers RELEASED, and the writes are a hold freed and an activity noted. -/
theorem releaseReturnsTheHold : Obligations.ReleaseReturnsTheHold := by
  intro s s1 p tag i hi hgrant hopen howner h c
  have moved := (holdMoved_freeHold s1 i).noteActivity p h.till .release
  exact ⟨s1.released i p, exec_of_only hgrant rfl (releaseTag_matched (State.matchTag_matched hi ⟨hopen, rfl⟩ howner)),
    moved.hold, moved.card, moved.drifts, moved.count, moved.free, moved.expiry, moved.rest⟩

/-! ### The refusals of sales -/

/-- What the first three checks of RESERVE, REDEEM and LOAD refuse: a MUTED port, an unknown card, and a card by its state
(R20, R50, R78). -/
def RefusedAtTheDoor (s : State) (p : PortId) (code : CardCode) (refuses : Answer → Prop) : Prop :=
  ((s.port p).health = .muted → refuses (.plain .portMuted)) ∧
  ((s.port p).health ≠ .muted →
    (s.target p code = none → refuses (.plain .unknownCard)) ∧
    ∀ t, s.target p code = some t →
      ((s.card t.ref).state = .blank → refuses (.plain .notIssued)) ∧
      ((s.card t.ref).state = .blocked → refuses (.plain .cardBlocked)) ∧
      ((s.card t.ref).state = .retired → refuses (.plain .cardRetired)))

theorem refusedAtTheDoor_of {s : State} {p : PortId} {code : CardCode} {refuses : Answer → Prop}
    (hmuted : (s.port p).health = .muted → refuses (.plain .portMuted))
    (hunknown : (s.port p).health ≠ .muted → s.target p code = none → refuses (.plain .unknownCard))
    (hstate : ∀ t outcome, (s.port p).health ≠ .muted → s.target p code = some t →
      (s.card t.ref).state.refusal = some outcome → refuses (.plain outcome)) :
    RefusedAtTheDoor s p code refuses := by
  refine ⟨hmuted, fun hm => ⟨hunknown hm, fun t ht => ⟨fun h => ?_, fun h => ?_, fun h => ?_⟩⟩⟩ <;>
    exact hstate t _ hm ht (by rw [h]; rfl)

theorem refusedAtTheDoor_of_saleCheck {s : State} {p : PortId} {code : CardCode} {asked : Nat} {flag : Bool}
    {refuses : Answer → Prop} (h : ∀ a, saleCheck p code asked flag s = .refused a → refuses a) :
    RefusedAtTheDoor s p code refuses := by
  refine refusedAtTheDoor_of (fun hm => h _ ?_) (fun hm ht => h _ ?_) fun t outcome hm ht ho => h _ ?_
  · simp only [saleCheck, if_pos hm]
  · simp only [saleCheck, if_neg hm, ht]
  · simp only [saleCheck, if_neg hm, ht, ho]

theorem saleCheck_useLimit {s : State} {p : PortId} {code : CardCode} {t : Target} (hm : (s.port p).health ≠ .muted)
    (ht : s.target p code = some t) (hactive : (s.card t.ref).state = .active)
    (huse : ¬UseAllowed t.rules.useLimit (s.card t.ref) s.accounts.day) (asked : Nat) (flag : Bool) :
    saleCheck p code asked flag s = .refused (.plain .useLimit) := by
  rw [saleCheck_active hm ht hactive, if_pos ((useLimit_reached_iff _ _ _).mpr huse)]

theorem saleCheck_noFunds {s : State} {p : PortId} {code : CardCode} {t : Target} (hm : (s.port p).health ≠ .muted)
    (ht : s.target p code = some t) (hactive : (s.card t.ref).state = .active)
    (huse : UseAllowed t.rules.useLimit (s.card t.ref) s.accounts.day) {asked : Nat} {flag : Bool}
    (hfunds : (s.card t.ref).available = 0 ∨
      ((s.card t.ref).available < asked ∧ (flag && t.rules.partialAllowed) = false)) :
    saleCheck p code asked flag s = .refused (.noFunds t.ref.isTrial (s.card t.ref).available) := by
  have hreached := (useLimit_reached_iff t.rules.useLimit (s.card t.ref) s.accounts.day).not.mpr (not_not.mpr huse)
  rw [saleCheck_active hm ht hactive, if_neg hreached, amountFound_eq_none.mpr hfunds]

/-- What the use limit and the funds refuse of a RESERVE or a REDEEM (R50 checks 4 and 5, R75). -/
def RefusedForUseOrFunds (s : State) (p : PortId) (code : CardCode) (refuses : Answer → Prop) (asked : Nat) (flag : Bool) :
    Prop :=
  ∀ t, (s.port p).health ≠ .muted → s.target p code = some t → (s.card t.ref).state = .active →
    let available := (s.card t.ref).value - (s.card t.ref).held
    (¬UseAllowed t.rules.useLimit (s.card t.ref) s.accounts.day → refuses (.plain .useLimit)) ∧
    (UseAllowed t.rules.useLimit (s.card t.ref) s.accounts.day →
      available = 0 ∨ (available < asked ∧ (flag && t.rules.partialAllowed) = false) →
      refuses (.noFunds t.ref.isTrial available))

theorem refusedForUseOrFunds_of_saleCheck {s : State} {p : PortId} {code : CardCode} {asked : Nat} {flag : Bool}
    {refuses : Answer → Prop} (h : ∀ a, saleCheck p code asked flag s = .refused a → refuses a) :
    RefusedForUseOrFunds s p code refuses asked flag := fun _ hm ht hactive =>
  ⟨fun huse => h _ (saleCheck_useLimit hm ht hactive huse asked flag),
    fun huse hfunds => h _ (saleCheck_noFunds hm ht hactive huse hfunds)⟩

theorem reserveCard_refused {s : State} {p : PortId} {code : CardCode} {asked : Nat} {flag : Bool} {a : Answer}
    (h : saleCheck p code asked flag s = .refused a) (till : TillId) (long : Bool) :
    reserveCard p code till asked flag long s = s.only a := by
  simp only [reserveCard, h]

theorem redeemCode_refused {s : State} {p : PortId} {code : CardCode} {asked : Nat} {flag : Bool} {a : Answer}
    (h : saleCheck p code asked flag s = .refused a) (till : TillId) :
    redeemCode p code till asked flag s = s.only a := by
  simp only [redeemCode, h]

theorem reserveCard_holdsFull {s : State} {p : PortId} {code : CardCode} {asked amount : Nat} {flag : Bool} {t : Target}
    (h : saleCheck p code asked flag s = .passed t amount) (hchain : 8 ≤ (s.card t.ref).chain.length) (till : TillId)
    (long : Bool) : reserveCard p code till asked flag long s = s.only (.plain .cardHoldsFull) := by
  simp only [reserveCard, h]
  exact if_pos hchain

theorem reserveCard_poolFull {s : State} {p : PortId} {code : CardCode} {asked amount : Nat} {flag : Bool} {t : Target}
    (h : saleCheck p code asked flag s = .passed t amount) (hchain : (s.card t.ref).chain.length < 8)
    (hfree : s.freeList = []) (till : TillId) (long : Bool) :
    reserveCard p code till asked flag long s = s.only (.plain .poolFull) := by
  simp only [reserveCard, h, Config.chainLimit, if_neg (not_le.mpr hchain), hfree]

theorem loadCode_atCeiling {s : State} {p : PortId} {code : CardCode} {t : Target} (hm : (s.port p).health ≠ .muted)
    (ht : s.target p code = some t) (hactive : (s.card t.ref).state = .active)
    (hceiling : t.rules.ceiling ≤ (s.card t.ref).value) (till : TillId) (asked : Nat) :
    loadCode p code till asked s =
      s.only (.atCeiling t.ref.isTrial (s.card t.ref).value t.rules.ceiling) := by
  simp only [loadCode, if_neg hm, ht, CardState.refusal_eq_none.mpr hactive, if_pos hceiling]

/-- Settles O27: the checks refuse with nothing changed, each where those before it have passed. -/
theorem salesAreRefusedInOrder : Obligations.SalesAreRefusedInOrder := by
  intro s s1 p tag r c code hgrant refuses firstThree nextTwo
  refine ⟨fun till asked flag long hr hc => ?reserve, fun till asked flag hr hc => ?redeem, fun till asked hr hc => ?load⟩
  all_goals subst hr hc
  case reserve =>
    have refused (a : Answer) (h : saleCheck p code asked flag s1 = .refused a) : refuses a :=
      exec_of_only hgrant rfl (reserveCard_refused h till long)
    refine ⟨refusedAtTheDoor_of_saleCheck refused, refusedForUseOrFunds_of_saleCheck refused, ?_⟩
    intro t amount hm ht hactive huse hamount
    have hpassed := saleCheck_passed hm ht hactive huse hamount
    exact ⟨fun hchain => exec_of_only hgrant rfl (reserveCard_holdsFull hpassed hchain till long),
      fun hchain hfree => exec_of_only hgrant rfl (reserveCard_poolFull hpassed hchain hfree till long)⟩
  case redeem =>
    have refused (a : Answer) (h : saleCheck p code asked flag s1 = .refused a) : refuses a :=
      exec_of_only hgrant rfl (redeemCode_refused h till)
    exact ⟨refusedAtTheDoor_of_saleCheck refused, refusedForUseOrFunds_of_saleCheck refused⟩
  case load =>
    refine ⟨refusedAtTheDoor_of (fun hm => ?_) (fun hm ht => ?_) fun t outcome hm ht ho => ?_, fun t hm ht hactive hc => ?_⟩
    · exact exec_of_only hgrant rfl (by simp only [Request.work, loadCode, if_pos hm])
    · exact exec_of_only hgrant rfl (by simp only [Request.work, loadCode, if_neg hm, ht])
    · exact exec_of_only hgrant rfl (by simp only [Request.work, loadCode, if_neg hm, ht, ho])
    · exact exec_of_only hgrant rfl (loadCode_atCeiling hm ht hactive hc till asked)

end Sys2Proof.Machine
end

section
/-! PROOFS. Office requests: the series table, the readers, the records of cards, sweep starts and ends, the business day
and trial cards. -/

namespace Sys2Proof.Machine

/-! ### The series table -/

theorem SeriesFields.inRange_iff (f : SeriesFields) : f.inRange = true ↔
    f.base ≤ 131071 ∧ 1 ≤ f.count ∧ f.count ≤ 131072 ∧ f.base + f.count ≤ 131072 ∧ 1 ≤ f.ceiling ∧
      f.ceiling ≤ 9999999 ∧ 30 ≤ f.shortLifetime ∧ f.shortLifetime ≤ f.longLifetime ∧ f.renewLimit ≤ 7 := by
  simp only [SeriesFields.inRange, Bool.and_eq_true, decide_eq_true_eq]
  simp only [Config.slots, Config.maxAmount]
  omega

theorem SeriesFields.sameStructure_iff (f g : SeriesFields) : f.sameStructure g = true ↔
    f.enabled = g.enabled ∧ f.matchBits = g.matchBits ∧ f.mask = g.mask ∧ f.base = g.base ∧ f.count = g.count := by
  simp only [SeriesFields.sameStructure, Bool.and_eq_true, beq_iff_eq, and_assoc]

theorem mem_allEntries (e : EntryId) : e ∈ allEntries := by
  revert e
  decide

theorem State.overlapsOther_iff (s : State) (e : EntryId) (f : SeriesFields) : s.overlapsOther e f = true ↔
    f.enabled = true ∧ ∃ o, o ≠ e ∧ (s.entry o).fields.enabled = true ∧
      f.base < (s.entry o).fields.base + (s.entry o).fields.count ∧ (s.entry o).fields.base < f.base + f.count := by
  simp [State.overlapsOther, SeriesFields.overlaps, mem_allEntries, and_assoc]

/-- Settles O37: the three checks by what they say of the fields, then the write of one entry. -/
theorem setSeriesChecksAndWrites : Obligations.SetSeriesChecksAndWrites := by
  intro s s1 p tag e f hgrant old ranges inUse overlap refuses
  have hrange : f.inRange = true ↔ ranges := f.inRange_iff
  have huse : (0 < (s1.entry e).openHolds ∧ (!f.sameStructure old) = true) ↔ inUse :=
    and_congr_right fun _ => by rw [Bool.not_eq_true', ← Bool.not_eq_true, SeriesFields.sameStructure_iff]
  have hover : s1.overlapsOther e f = true ↔ overlap := s1.overlapsOther_iff e f
  refine ⟨fun hr => exec_of_only hgrant rfl ?_, fun hr hu => exec_of_only hgrant rfl ?_,
    fun hr hu ho => exec_of_only hgrant rfl ?_,
    fun hr hu ho => ⟨s1.modifyEntry e fun entry => { entry with fields := f }, exec_of_only hgrant rfl ?_, ?_, ?_, rfl⟩⟩
  · simp only [Request.work, writeSeries, Bool.not_eq_true', Bool.eq_false_iff.mpr (hrange.not.mpr hr), if_true]
  · simp only [Request.work, writeSeries, hrange.mpr hr, Bool.not_true, Bool.false_eq_true, if_false]
    exact if_pos (huse.mpr hu)
  · simp only [Request.work, writeSeries, hrange.mpr hr, Bool.not_true, Bool.false_eq_true, if_false, hover.mpr ho, if_true]
    exact if_neg (huse.not.mpr hu)
  · simp only [Request.work, writeSeries, hrange.mpr hr, Bool.not_true, Bool.false_eq_true, if_false,
      Bool.eq_false_iff.mpr (hover.not.mpr ho)]
    exact if_neg (huse.not.mpr hu)
  · rw [State.entry_modifyEntry, if_pos rfl]
  · exact fun o hne => by rw [State.entry_modifyEntry, if_neg (Ne.symm hne)]

/-! ### Readers -/

/-- Settles O38: each reader's work is one answer on the state it met. -/
theorem officeReadersChangeNothing : Obligations.OfficeReadersChangeNothing := by
  intro s s1 p tag r hgrant answers cardAnswer
  refine ⟨fun e hr => ?_, fun slot hr => ?_, fun code hr => ⟨fun hcode => ?_, fun slot e hcode => ?_⟩, fun i hr => ?_,
    fun day hr => ⟨fun d hd => ?_, fun hnone hempty => ?_, fun first last hnone hfirst hlast => ?_⟩, fun hr => ?_⟩
  all_goals
    subst hr
    refine exec_of_only hgrant rfl ?_
  · rfl
  · rfl
  · simp only [Request.work, readCardRecord, State.locateAny, hcode, Option.map_none]
  · simp only [Request.work, readCardRecord, State.locateAny, hcode, Option.map_some]
    rfl
  · rfl
  · have hfound : s1.accounts.closedDays.find? (fun x => x.day == day) = some d := hd
    simp only [Request.work, reportDay, hfound]
  · simp only [Request.work, reportDay, hempty, List.find?_nil, List.head?_nil, List.getLast?_nil, Option.map_none,
      Option.getD_none]
  · have hmissing : s1.accounts.closedDays.find? (fun x => x.day == day) = none :=
      List.find?_eq_none.mpr fun d hd => by simpa using hnone d hd
    simp only [Request.work, reportDay, hmissing, hfirst, hlast, Option.map_some, Option.getD_some]
  · rfl

/-! ### Records of cards -/

theorem CardState.isIssued_iff (c : CardState) : c.isIssued = true ↔ c = .active ∨ c = .blocked := by
  cases c <;> simp [CardState.isIssued]

theorem issueCard_located {s : State} {address : Address} {slot : Nat} {e : EntryId} (h : s.locate address = some (slot, e))
    (value : Nat) : issueCard address value s =
      if (s.slotCard slot).state ≠ .blank then s.only (.plain .notBlank)
      else if (s.entry e).fields.ceiling < value then s.only (.plain .badField)
      else (s.issueSlot slot value).only (.issued slot value) := by
  simp only [issueCard, h]

theorem moveState_located {s : State} {address : Address} {slot : Nat} {e : EntryId} (h : s.locate address = some (slot, e))
    (before after : CardState) : moveState address before after s =
      if (s.slotCard slot).state ≠ before then s.only (.plain .wrongState)
      else (s.setSlotCard slot { s.slotCard slot with state := after }).only (.stateSet slot after) := by
  simp only [moveState, h]

theorem retireCard_located {s : State} {address : Address} {slot : Nat} {e : EntryId}
    (h : s.locate address = some (slot, e)) : retireCard address s =
      if ¬((s.slotCard slot).state = .active ∨ (s.slotCard slot).state = .blocked) then s.only (.plain .wrongState)
      else if (s.slotCard slot).chain ≠ [] then s.only (.hasHolds (s.slotCard slot).chain.length)
      else ((s.setSlotCard slot { s.slotCard slot with state := .retired, value := 0 }).report (.real slot)
        (.writeOff (s.slotCard slot).value)).only (.retired slot (s.slotCard slot).value) := by
  simp only [retireCard, h, ← CardState.isIssued_iff, Bool.not_eq_true', Bool.not_eq_true]

theorem editCardFields_located {s : State} {address : Address} {slot : Nat} {e : EntryId}
    (h : s.locate address = some (slot, e)) (editValue editUses : Bool) (newValue newUses : Nat) :
    editCardFields address editValue editUses newValue newUses s =
      let c := s.slotCard slot
      let c1 := c.edited editValue editUses newValue newUses s.accounts.day
      if ¬(c.state = .active ∨ c.state = .blocked) then s.only (.plain .wrongState)
      else if editValue = true ∧ (9999999 < newValue ∨ newValue < c.held) then s.only (.plain .badField)
      else (if editValue then (s.setSlotCard slot c1).report (.real slot) (.adjust c.value newValue)
        else s.setSlotCard slot c1).only (.edited slot c1.value c1.held c1.useDay c1.uses) := by
  simp only [editCardFields, h, ← CardState.isIssued_iff, Bool.not_eq_true', Bool.not_eq_true]
  rfl

/-- Settles O39: an address that reaches no card, then the checks of each request in their order. -/
theorem officeCardRequestsAreRefused : Obligations.OfficeCardRequestsAreRefused := by
  intro s s1 p tag r c address hgrant refuses unknown issued
  refine ⟨fun value hr hc => ?issue, fun hr hc => ?block, fun hr hc => ?unblock, fun hr hc => ?retire,
    fun editValue editUses newValue newUses hr hc => ?edit⟩
  all_goals
    subst hr hc
    refine ⟨fun hnone => exec_of_only hgrant rfl ?_, fun slot e hsome => ?_⟩
  case issue.refine_1 => simp only [Request.work, issueCard, hnone]
  case block.refine_1 => simp only [Request.work, moveState, hnone]
  case unblock.refine_1 => simp only [Request.work, moveState, hnone]
  case retire.refine_1 => simp only [Request.work, retireCard, hnone]
  case edit.refine_1 => simp only [Request.work, editCardFields, hnone]
  case issue.refine_2 =>
    refine ⟨fun hstate => exec_of_only hgrant rfl ?_, fun hstate hvalue => exec_of_only hgrant rfl ?_⟩
    · rw [Request.work, issueCard_located hsome, if_pos hstate]
    · rw [Request.work, issueCard_located hsome, if_neg (not_not.mpr hstate), if_pos hvalue]
  case block.refine_2 =>
    exact fun hstate => exec_of_only hgrant rfl (by rw [Request.work, moveState_located hsome, if_pos hstate])
  case unblock.refine_2 =>
    exact fun hstate => exec_of_only hgrant rfl (by rw [Request.work, moveState_located hsome, if_pos hstate])
  case retire.refine_2 =>
    refine ⟨fun hstate => exec_of_only hgrant rfl ?_, fun hstate hchain => exec_of_only hgrant rfl ?_⟩
    · rw [Request.work, retireCard_located hsome, if_pos hstate]
    · rw [Request.work, retireCard_located hsome, if_neg (not_not.mpr hstate), if_pos hchain]
  case edit.refine_2 =>
    refine ⟨fun hstate => exec_of_only hgrant rfl ?_, fun hstate hedit hvalue => exec_of_only hgrant rfl ?_⟩
    · rw [Request.work, editCardFields_located hsome]
      exact if_pos hstate
    · rw [Request.work, editCardFields_located hsome]
      exact (if_neg (not_not.mpr hstate)).trans (if_pos ⟨hedit, hvalue⟩)

/-- What a write of a slot's record, with its movement reported, changes (R22 to R25, R113, R123). -/
structure RecordWritten (s w : State) (slot : Nat) (c : Card) (accounts : Accounts) : Prop where
  one : OneCard s w (.real slot) c
  drifts : DriftsFollow s w (.real slot)
  accounts : w.accounts = accounts
  rest : w = { s with cards := w.cards, sweeps := w.sweeps, accounts := w.accounts }

theorem recordWritten_setSlotCard (s : State) (slot : Nat) (c : Card) :
    RecordWritten s (s.setSlotCard slot c) slot c s.accounts :=
  let written := cardWritten_setCard s (.real slot) c
  ⟨written.one, written.drifts, rfl, rfl⟩

theorem recordWritten_report (s : State) (slot : Nat) (c : Card) (m : Movement) :
    RecordWritten s ((s.setSlotCard slot c).report (.real slot) m) slot c (afterMovement s.accounts (.real slot) m.figures) :=
  let ⟨one, drifts, accounts, _⟩ := (cardWritten_setCard s (.real slot) c).report m
  ⟨one, drifts, accounts, rfl⟩

/-- Settles O40: the checks pass, and the work is one record written, its movement reported where it has one. -/
theorem officeCardRequestsWriteTheRecord : Obligations.OfficeCardRequestsWriteTheRecord := by
  intro s s1 p tag r address slot e hgrant hloc c issued writes reported
  have written {i : Instr} {a : Answer} {w : State} {record : Card} {accounts : Accounts} (hrow : r.row = some i)
      (hwork : r.work p s1 = w.only a) (h : RecordWritten s1 w slot record accounts) : writes i a record accounts :=
    ⟨w, exec_of_only hgrant hrow hwork, h.one, h.drifts, h.accounts, h.rest⟩
  refine ⟨fun value hr hstate hvalue => ?issue, fun hr hstate => ?block, fun hr hstate => ?unblock,
    fun hr hstate hchain => ?retire, fun editValue editUses newValue newUses hr hstate hedit => ?edit⟩
  all_goals subst hr
  case issue =>
    exact written rfl ((issueCard_located hloc value).trans
      ((if_neg (not_not.mpr hstate)).trans (if_neg (not_lt.mpr hvalue)))) (recordWritten_report _ _ _ _)
  case block =>
    exact written rfl ((moveState_located hloc _ _).trans (if_neg (not_not.mpr hstate))) (recordWritten_setSlotCard _ _ _)
  case unblock =>
    exact written rfl ((moveState_located hloc _ _).trans (if_neg (not_not.mpr hstate))) (recordWritten_setSlotCard _ _ _)
  case retire =>
    exact written rfl ((retireCard_located hloc).trans
      ((if_neg (not_not.mpr hstate)).trans (if_neg (not_not.mpr hchain)))) (recordWritten_report _ _ _ _)
  case edit =>
    have hfield : ¬(editValue = true ∧ (9999999 < newValue ∨ newValue < c.held)) := by
      rintro ⟨hv, hbad⟩
      obtain ⟨hhigh, hheld⟩ := hedit hv
      omega
    refine written rfl ((editCardFields_located hloc editValue editUses newValue newUses).trans
      ((if_neg (not_not.mpr hstate)).trans (if_neg hfield))) ?_
    cases editValue with
    | true => exact recordWritten_report _ _ _ _
    | false => exact recordWritten_setSlotCard _ _ _

/-! ### Device time and sweeps -/

/-- Settles O41: the work of SET-TIME, and the window comparison that follows it. -/
theorem setTimeWritesDeviceTime : Obligations.SetTimeWritesDeviceTime := fun _ _ _ _ _ hgrant =>
  exec_of_granted hgrant rfl

theorem startSweep_idle {s : State} {u : UnitId} (h : s.idleUnit = some u) (p : PortId) (params : SweepParams) :
    startSweep p params s = (s.modifySweep u fun _ => startedSweep p params).only (.accepted u) := by
  simp only [startSweep, h]

theorem startSweep_busy {s : State} (h : s.idleUnit = none) (p : PortId) (params : SweepParams) :
    startSweep p params s = s.only (.plain .sweepsBusy) := by
  simp only [startSweep, h]

theorem State.runAllowed_iff (s : State) (start stop value : Nat) : s.runAllowed start stop value = true ↔
    ∃ e, s.governing start = some e ∧ (s.entry e).fields.base ≤ stop ∧
      stop < (s.entry e).fields.base + (s.entry e).fields.count ∧ value ≤ (s.entry e).fields.ceiling := by
  unfold State.runAllowed
  cases h : s.governing start with
  | none => simp
  | some e => simp [SeriesFields.covers, and_assoc]

/-- Settles O42: the lowest IDLE unit by the two units' states, taken by the work of a start. -/
theorem sweepStartsTakeAnIdleUnit : Obligations.SweepStartsTakeAnIdleUnit := by
  intro s s1 p tag r hgrant starts
  have started {c : Instr} {params : SweepParams} (hrow : r.row = some c) (hwork : r.work p s1 = startSweep p params s1) :
      starts c params params.firstCursor := by
    refine ⟨fun h0 => ?_, fun h0 h1 => ?_, fun h0 h1 => ?_⟩
    · have hidle : s1.idleUnit = some 0 := by simp [State.idleUnit, h0]
      exact exec_of_only hgrant hrow (hwork.trans (startSweep_idle hidle p params))
    · have hidle : s1.idleUnit = some 1 := by simp [State.idleUnit, h0, h1]
      exact exec_of_only hgrant hrow (hwork.trans (startSweep_idle hidle p params))
    · have hbusy : s1.idleUnit = none := by simp [State.idleUnit, h0, h1]
      exact exec_of_only hgrant hrow (hwork.trans (startSweep_busy hbusy p params))
  refine ⟨fun start stop critA critB limit skip hr => ?_, fun start stop hr => ?_, fun owner till hr => ?_,
    fun start stop stride value hr => ⟨fun hallowed => ?_, fun hallowed => ?_⟩⟩
  all_goals subst hr
  · exact started rfl rfl
  · exact started rfl rfl
  · exact started rfl rfl
  · exact started (params := .issueRun start stop stride value) rfl
      (if_pos ((s1.runAllowed_iff start stop value).mpr hallowed))
  · exact exec_of_only hgrant rfl (if_neg ((s1.runAllowed_iff start stop value).not.mpr hallowed))

/-- Settles O43: the two branches of the cancellation. -/
theorem cancelSweepEndsARunningUnit : Obligations.CancelSweepEndsARunningUnit := fun _ _ _ _ _ hgrant =>
  ⟨fun h => exec_of_only hgrant rfl (if_neg (Bool.eq_false_iff.mp h)), fun h => exec_of_only hgrant rfl (if_pos h)⟩

/-! ### The business day -/

theorem openClose_busy {s : State} {owner : PortId} {frozen : Figures} {deadline : Nat}
    (h : s.accounts.close = .closing owner frozen deadline) (p : PortId) : openClose p s = s.only (.closeBusy owner) := by
  simp only [openClose, h]

theorem openClose_opened {s : State} (h : s.accounts.close = .opened) (p : PortId) :
    openClose p s =
      let deadline := min (s.clock.time + s.accounts.window) 4294967295
      { state := { s with accounts := { s.accounts with close := .closing p s.accounts.current deadline } }
        answer := .closeReady s.accounts.day s.accounts.current deadline
        tail := .window } := by
  simp only [openClose, h, deadlineAfter, Config.maxTime]

theorem confirmPending_opened {s : State} (h : s.accounts.close = .opened) (p : PortId) :
    confirmPending p s = s.only (.plain .noClose) := by
  simp only [confirmPending, h]

theorem confirmPending_closing {s : State} {owner : PortId} {frozen : Figures} {deadline : Nat}
    (h : s.accounts.close = .closing owner frozen deadline) (p : PortId) :
    confirmPending p s = if owner = p then
      { s with accounts := s.accounts.confirmed p frozen s.clock.time }.only (.closed s.accounts.day (nextDay s.accounts.day))
      else s.only (.plain .noClose) := by
  simp only [confirmPending, h]

/-- The closed-day list after a confirmed close, by its length before (R129 step 2). -/
theorem fileDay_eq (days : List ClosedDay) (r : ClosedDay) : fileDay days r =
    if days.getLast?.map ClosedDay.day = some 65535 then days.dropLast ++ [r]
    else if days.length < 8 then days ++ [r]
    else (days ++ [r]).tail := by
  have hlen : (Config.closedDayPlaces < (days ++ [r]).length) ↔ ¬days.length < 8 := by
    simp only [Config.closedDayPlaces, List.length_append, List.length_singleton]
    omega
  simp only [fileDay, hlen, ite_not]
  rfl

/-- Settles O44: the two requests at each close state; the window comparison finds an earlier time when the deadline lies
ahead. -/
theorem theDayClosesInTwoSteps : Obligations.TheDayClosesInTwoSteps := by
  intro s s1 p tag a now
  refine ⟨fun hgrant => ⟨fun owner frozen deadline h => ?_, fun h => ?_⟩,
    fun hgrant => ⟨fun h => ?_, fun owner frozen deadline h => ⟨fun hother => ?_, fun howner => ?_⟩⟩⟩
  · exact exec_of_only hgrant rfl (openClose_busy h p)
  · intro deadline opened
    have hexec : exec .closeDay s =
        .next (opened.answering s p tag (.closeReady a.day a.current deadline)).windowCheck := by
      rw [exec_of_granted hgrant rfl, Request.work, openClose_opened h]
      rfl
    refine ⟨hexec, fun hahead => ?_⟩
    rw [hexec, State.windowCheck_ahead]
    rintro _ _ _ hclose
    cases hclose
    exact hahead
  · exact exec_of_only hgrant rfl (confirmPending_opened h p)
  · exact exec_of_only hgrant rfl ((confirmPending_closing h p).trans (if_neg hother))
  · rw [exec_of_only hgrant rfl ((confirmPending_closing h p).trans (if_pos howner)), Accounts.confirmed, fileDay_eq]
    rfl

/-! ### Trial cards -/

theorem State.trialIdle_iff (s : State) : s.trialIdle = true ↔ ∀ n : TrialId, (s.card (.trial n)).chain = [] := by
  refine ⟨State.chain_eq_nil_of_trialIdle, fun h => List.all_eq_true.mpr fun c hc => ?_⟩
  obtain ⟨i, hi, rfl⟩ := List.getElem_of_mem hc
  rw [List.isEmpty_iff]
  have hcard := h ⟨i, by simpa using hi⟩
  simpa [State.card] using hcard

/-- Settles O45: the three branches of TRIAL-SET. -/
theorem trialSetWritesIdleTrialCards : Obligations.TrialSetWritesIdleTrialCards := by
  intro s s1 p tag values write hgrant idle
  have hidle : s1.trialIdle = true ↔ idle := s1.trialIdle_iff
  refine ⟨fun hw => ?_, fun hw hbusy => ?_, fun hw hi => ⟨s1.writeTrial values, ?_, ?_, rfl, rfl⟩⟩
  all_goals subst hw
  · exact exec_of_only hgrant rfl rfl
  · exact exec_of_only hgrant rfl (if_neg (hidle.not.mpr hbusy))
  · exact exec_of_only hgrant rfl (if_pos (hidle.mpr hi))
  · exact s1.card_writeTrial values

end Sys2Proof.Machine
end

section
/-! PROOFS. The board: power-on, the edges of RESET_N, the seconds and the window; and the requests a port answers
itself. -/

namespace Sys2Proof.Machine

/-! ### Power-on -/

theorem State.port_reset (p : PortId) : State.reset.port p = .start (if p = 0 then .office else .till) := by
  by_cases h : p = 0
  · subst h
    rfl
  · have hv : (0 : Nat) ≠ p.val := fun hv => h (Fin.ext hv.symm)
    simp [State.port, State.reset, h, hv]

theorem still_reset : Still State.reset where
  ports p := by rw [State.port_reset]; exact ⟨rfl, rfl, rfl, rfl, rfl⟩
  inFlight := rfl
  expiry := rfl
  sweeps u := by rw [State.sweep_reset]; rfl
  close := rfl

/-- With nothing queued and nothing in flight a port has its places free. -/
theorem Still.queueFull {s : State} (h : Still s) (p : PortId) : s.queueFull p = false := by
  obtain ⟨hrequests, hanswers, -⟩ := h.ports p
  rw [← Bool.not_eq_true, State.queueFull_iff, State.takenPlaces, hrequests, hanswers, h.inFlight]
  simp

theorem Still.levels {s : State} (h : Still s) (p : PortId) : s.waitLevel p = false ∧ s.attnLevel p = false := by
  obtain ⟨-, -, hnotices, -⟩ := h.ports p
  simp [State.waitLevel, State.attnLevel, h.queueFull p, hnotices]

/-- Settles O7: what POWER_ON leaves is the reset state but for the line rate and the queue, record by record. -/
theorem powerOnSetsStartingValues : Obligations.PowerOnSetsStartingValues := by
  intro s rate1 rate0
  let t : State := { State.reset with lineRate := .ofStraps rate1 rate0, pending := s.pending }
  have still : Still t := ⟨still_reset.ports, rfl, rfl, still_reset.sweeps, rfl⟩
  refine ⟨t, rfl, State.entry_reset, fun _ => rfl, fun _ => rfl, ?free, rfl,
    fun n => ⟨State.card_reset_trial n, ?bases⟩, rfl, rfl, still.nextGrant, State.sweep_reset, rfl, rfl, fun p => ?ports,
    still.levels, ?rate, rfl, rfl⟩
  case free =>
    dsimp only [t]
    rw [State.freeList_reset, Config.holdRecords]
  case bases => simp [t, State.reset]
  case ports =>
    rw [show t.port p = _ from State.port_reset p]
    rfl
  case rate => cases rate1 <;> cases rate0 <;> rfl

/-! ### RESET_N -/

theorem State.entry_resetLine (s : State) (e : EntryId) : s.resetLine.entry e = { s.entry e with openHolds := 0 } := by
  simp [State.entry, State.resetLine, mapVec_getElem]

theorem State.levels_of_low {s : State} (h : s.resetLow = true) (p : PortId) :
    s.waitLevel p = false ∧ s.attnLevel p = false := by
  simp [State.waitLevel, State.attnLevel, h]

/-- The line reset with its drop of a close written out (R35, R139). -/
theorem State.resetLine_rest (s : State) :
    let t := s.resetLine
    t = { s with
      resetLow := true, series := t.series, cards := t.cards, holds := t.holds, freeList := t.freeList, expiry := [],
      trialCards := t.trialCards, lastGranted := 8, inFlight := none, sweeps := t.sweeps, accounts := t.accounts,
      ports := t.ports } := by
  intro t
  have h : t = s.resetLine := rfl
  rw [State.resetLine, dropClose_none] at h
  rw [h]

/-- Settles O8: the line reset record by record; the freed holds are those of the canonical table that are open. -/
theorem resetLineKeepsAndClears : Obligations.ResetLineKeepsAndClears := by
  intro s hhigh htables
  refine ⟨s.resetLine, by simp only [exec, execResetNAssert, hhigh, Bool.false_eq_true, if_false], s.entry_resetLine,
    State.slotCard_resetLine htables, State.hold_resetLine htables, ?freed, rfl, s.card_resetLine_trial, rfl, rfl,
    s.sweep_resetLine, ?accounts, s.port_resetLine, State.levels_of_low rfl, s.resetLine_rest⟩
  case freed =>
    exact ⟨s.openIndices, rfl, sorted_filter htables.2 _, State.mem_openIndices htables⟩
  case accounts =>
    exact congrArg State.accounts (dropClose_none s)

/-- Settles O9: the release writes every receiver; the other two edges do not take place. -/
theorem resetReleaseSamplesStraps : Obligations.ResetReleaseSamplesStraps := by
  intro s rate1 rate0
  refine ⟨fun hlow => ⟨_, by simp only [exec, execResetNRelease, if_pos hlow]; rfl, fun p => ?_, rfl⟩, fun hlow => ?_,
    fun hhigh => ?_⟩
  · simp [State.port, mapVec_getElem]
  · simp only [exec, execResetNAssert, if_pos hlow]
  · simp only [exec, execResetNRelease, hhigh, Bool.false_eq_true, if_false]

/-! ### Seconds and the window -/

/-- Settles O10: each time base counts its own edge and no other. -/
theorem secondEventsRaiseDeviceTime : Obligations.SecondEventsRaiseDeviceTime := by
  intro s now
  refine ⟨fun hbase => ⟨?_, ?_, ?_⟩, fun hbase => ⟨?_, ?_, fun hcount => ?_, fun hcount => ?_⟩⟩
  · have hexec : exec .tickSecond s = .next s.secondEvent := by simp only [exec, execTickSecond, hbase]
    exact hexec
  · simp only [exec, execDividerSecond, hbase]
  · simp only [State.refclkEdge, hbase]
  · simp only [exec, execTickSecond, hbase]
  · have hexec : exec .dividerSecond s = .next s.restartDivider.secondEvent := by
      simp only [exec, execDividerSecond, hbase]
    exact hexec
  · simp only [State.refclkEdge, hbase, if_neg (not_le.mpr hcount)]
  · have hedge : s.refclkEdge = s.restartDivider.secondEvent := by
      simp only [State.refclkEdge, hbase, if_pos hcount]
    exact hedge

/-- Settles O11: the window comparison ahead of the deadline and at or after it. -/
theorem windowExpiryDropsTheClose : Obligations.WindowExpiryDropsTheClose := by
  intro s
  refine ⟨rfl, fun hopened => State.windowCheck_ahead fun _ _ _ h => (by rw [hopened] at h; cases h),
    fun owner frozen deadline h => ⟨fun hahead => State.windowCheck_ahead fun o f d hclose => ?_, fun hdue => ?_⟩⟩
  · rw [h] at hclose
    cases hclose
    exact hahead
  · intro t
    have ht : t = _ := State.windowCheck_due h hdue
    rw [ht]
    exact ⟨.of_ports rfl, rfl, rfl, rfl⟩

/-! ### COLLECT, STATUS, PORT-STATUS and IDENT -/

theorem State.answerLocal_of_inFlight {s : State} {p : PortId} (h : s.inFlightAt p = true)
    (select : Request → Option (State → State × Answer)) : s.answerLocal p select = s := by
  unfold State.answerLocal
  split
  case h_1 => rfl
  case h_2 => split <;> simp only [h, if_true]

/-- Settles O35: COLLECT's work is the notice popped, after the request itself. -/
theorem collectTakesTheOldestNotice : Obligations.CollectTakesTheOldestNotice := by
  intro s p tag rest hhead
  refine ⟨fun hflight => ?_, fun hfree => ⟨fun hempty => ?_, fun e left hnotices => ?_⟩⟩
  · exact congrArg Host.Outcome.next (State.answerLocal_of_inFlight hflight _)
  · have hwork : collectNotice p (s.popRequest p) = (s.popRequest p, .plain .none) := by
      simp only [collectNotice, State.port_popRequest, if_true, hempty]
    exact congrArg Host.Outcome.next (State.answerLocal_of_head hhead hfree rfl rfl hwork)
  · have hwork : exec (.collect p) s =
        .next ((collectNotice p (s.popRequest p)).1.pushAnswer p tag (collectNotice p (s.popRequest p)).2) := by
      simp only [exec, execCollect, State.answerLocal, hhead, hfree, Bool.false_eq_true, if_false]
      rfl
    rw [hwork]
    simp only [collectNotice, State.port_popRequest, if_true, hnotices]
    rw [State.pushAnswer, State.popRequest, State.modifyPort_modifyPort, State.modifyPort_modifyPort]
    exact congrArg Host.Outcome.next (State.modifyPort_congr (by simp [hhead]))

theorem Request.permitted_status_iff (role : Role) (p : PortId) : Request.permitted role p .status = (role == .office) :=
  rfl

/-- The WAIT level of one port reads that port and the grant in progress. -/
theorem State.waitLevel_congr {s w : State} {p : PortId} (hport : w.port p = s.port p) (hflight : w.inFlight = s.inFlight)
    (hlow : w.resetLow = s.resetLow) : w.waitLevel p = s.waitLevel p := by
  have hfull : w.queueFull p = s.queueFull p := by
    rw [Bool.eq_iff_iff, State.queueFull_iff, State.queueFull_iff, State.takenPlaces, State.takenPlaces, hport, hflight]
  rw [State.waitLevel, State.waitLevel, hfull, hlow]

/-- The WAIT level once an answer stands in the place of the request (R154). -/
theorem State.waitAfterAnswer_eq {s : State} {p : PortId} {tag : Byte} {r : Request} {rest : List QueuedRequest}
    (h : (s.port p).requests = ⟨tag, r⟩ :: rest) (a : TaggedAnswer) :
    (s.popRequest p).waitAfterAnswer p =
      (s.modifyPort p fun port => { port with requests := rest, answers := port.answers ++ [a] }).waitLevel p := by
  have hpop : ((s.popRequest p).port p).requests = rest := by simp [State.port_popRequest, h]
  have hanswers : ((s.popRequest p).port p).answers = (s.port p).answers := by simp [State.port_popRequest]
  have hroom : (s.popRequest p).freePlaces p ≤ 1 ↔
      (s.modifyPort p fun port => { port with requests := rest, answers := port.answers ++ [a] }).freePlaces p = 0 := by
    simp only [State.freePlaces, State.usedPlaces, hpop, hanswers, State.port_modifyPort_self, List.length_append,
      List.length_singleton]
    change _ - (_ + (if s.inFlightAt p = true then 1 else 0)) ≤ 1 ↔
      _ - (_ + (if s.inFlightAt p = true then 1 else 0)) = 0
    omega
  simp only [State.waitAfterAnswer, State.waitLevel, State.queueFull, hpop, hroom, State.port_modifyPort_self]
  rfl

/-- The WAIT level a PORT-STATUS reports lies between the two that the manual leaves open (log 10). -/
theorem State.reportedWait_cases {s : State} {p q : PortId} {tag : Byte} {r : Request} {rest : List QueuedRequest}
    (h : (s.port p).requests = ⟨tag, r⟩ :: rest) (a : TaggedAnswer) :
    let wait := (s.popRequest p).reportedWait p q (s.waitLevel p)
    (q ≠ p → wait = s.waitLevel q) ∧
    (q = p → wait = s.waitLevel p ∨ wait =
      (s.modifyPort p fun port => { port with requests := rest, answers := port.answers ++ [a] }).waitLevel p) := by
  refine ⟨fun hne => ?_, fun heq => ?_⟩
  · rw [State.reportedWait, if_neg hne]
    exact State.waitLevel_congr (by rw [State.port_popRequest, if_neg (Ne.symm hne)]) rfl rfl
  · rw [State.reportedWait, if_pos heq, ← State.waitAfterAnswer_eq h a]
    split
    case isTrue => exact .inl rfl
    case isFalse => exact .inr rfl

/-- The record of a port, read when the request at the head of `p` has left its queue (R158). -/
theorem State.portReport_popRequest {s : State} {p : PortId} {tag : Byte} {r : Request} {rest : List QueuedRequest}
    (h : (s.port p).requests = ⟨tag, r⟩ :: rest) (q : PortId) (wait : Bool) :
    (s.popRequest p).portReport q wait =
      ⟨(s.port q).role, (s.port q).mode, (s.port q).health, (s.port q).errorCount, (s.port q).timeout,
        (s.port q).recovery, if q = p then rest.length else (s.port q).requests.length, (s.port q).answers.length,
        (s.port q).notices.length, wait, s.attnLevel q, (s.port q).idleRun⟩ := by
  have hattn : (s.popRequest p).attnLevel q = s.attnLevel q := by
    simp only [State.attnLevel, State.port_popRequest]
    split
    case isTrue hq => rw [← hq]; rfl
    case isFalse => rfl
  simp only [State.portReport, hattn, State.port_popRequest]
  by_cases hq : p = q
  · subst hq
    simp [h]
  · simp [hq, Ne.symm hq]

/-- Settles O36: the head of the queue is permitted or not, and its work is an answer on the state without it. -/
theorem portsAnswerTheirOwnRequests : Obligations.PortsAnswerTheirOwnRequests := by
  intro s p tag r rest hhead hfree answered
  refine ⟨fun hr => ?ident, fun hr hrole => ?statusTill, fun hr hrole => ⟨fun hflight => ?statusFree, fun f hflight => ?statusBusy⟩,
    fun q hr => ⟨fun hrole hq => ?other, fun hok => ?reported⟩⟩
  all_goals subst hr
  case ident => exact congrArg Host.Outcome.next (State.answerLocal_of_head hhead hfree rfl rfl rfl)
  case statusTill =>
    exact congrArg Host.Outcome.next (State.answerLocal_of_unpermitted hhead hfree rfl (by rw [hrole]; rfl))
  case statusFree =>
    have hview : (s.popRequest p).settledView = s.view := by
      simp only [State.settledView, show (s.popRequest p).inFlight = none from hflight]
      rfl
    refine congrArg Host.Outcome.next (State.answerLocal_of_head hhead hfree rfl (by rw [hrole]; rfl) ?_)
    rw [statusAnswer, hview]
    rfl
  case statusBusy =>
    have hview : (s.popRequest p).settledView = f.before := by
      simp only [State.settledView, show (s.popRequest p).inFlight = some f from hflight]
    refine congrArg Host.Outcome.next (State.answerLocal_of_head hhead hfree rfl (by rw [hrole]; rfl) ?_)
    rw [statusAnswer, hview]
    rfl
  case other =>
    have hp : Request.permitted (s.port p).role p (.portStatus q) = false := by simp [Request.permitted, hrole, hq]
    exact congrArg Host.Outcome.next (State.answerLocal_of_unpermitted hhead hfree rfl hp)
  case reported =>
    have hp : Request.permitted (s.port p).role p (.portStatus q) = true := by simpa [Request.permitted] using hok
    refine ⟨(s.popRequest p).reportedWait p q (s.waitLevel p), ?_, State.reportedWait_cases hhead _⟩
    refine congrArg Host.Outcome.next (State.answerLocal_of_head hhead hfree rfl hp ?_)
    rw [portStatusAnswer, State.portReport_popRequest hhead]

end Sys2Proof.Machine
end

section
/-! PROOFS. What reaches a whole port: a dropped close, an entry to OFF, a port reset, and the settings SET-PORT, SET-TIMING,
RESET-PORT and RESTORE-PORT write. -/

namespace Sys2Proof.Machine

/-! ### A close dropped for its owner -/

/-- What the drop of a port's own close leaves: its notice at the port, the day sets merged, and nothing else
(R130, R131). -/
structure CloseDropped (s w : State) (p : PortId) (cause : DropCause) : Prop where
  port : OnePort s w p { s.port p with
    notices := if s.accounts.close.owner? = some p then pushNotice (.closeDropped s.accounts.day cause) (s.port p).notices
      else (s.port p).notices }
  accounts : w.accounts = if s.accounts.close.owner? = some p then { s.accounts with
    current := s.accounts.current.add s.accounts.next, next := .zero, close := .opened } else s.accounts
  rest : w = { s with ports := w.ports, accounts := w.accounts }

theorem OnePort.refl (s : State) (p : PortId) : OnePort s s p (s.port p) :=
  ⟨rfl, fun _ _ => rfl⟩

theorem closeDropped_dropCloseOf (s : State) (p : PortId) (cause : DropCause) :
    CloseDropped s (s.dropCloseOf p cause) p cause := by
  by_cases h : s.accounts.close.owner? = some p
  · have hw := State.dropCloseOf_of_owner h cause
    refine ⟨?_, ?_, ?_⟩
    · rw [if_pos h, hw]
      exact .of_ports rfl
    · rw [if_pos h, hw]
      rfl
    · rw [hw]
      rfl
  · have hw := State.dropCloseOf_of_not_owner h cause
    refine ⟨?_, ?_, ?_⟩
    · rw [if_neg h, hw]
      exact .refl s p
    · rw [if_neg h, hw]
    · rw [hw]

theorem OnePort.trans {s t w : State} {p : PortId} {a b : Port} (h1 : OnePort s t p a) (h2 : OnePort t w p b) :
    OnePort s w p b :=
  ⟨h2.written, fun q hq => (h2.others q hq).trans (h1.others q hq)⟩

/-! ### SET-PORT -/

/-- The holds a SET-PORT frees: the open TRIAL holds of a target that leaves TRIAL (R146). -/
def State.leaving (s : State) (target : PortId) (mode : Mode) : List Nat :=
  if (s.port target).mode = .trial ∧ mode = .normal then s.trialHoldsOf target else []

/-- The state with those holds freed, as `State.writePort` begins. -/
def State.left (s : State) (target : PortId) (mode : Mode) : State :=
  if (s.port target).mode = .trial ∧ mode = .normal then s.leaveTrial target else s

theorem Freed.nil {s : State} (hok : PoolOk s) : Freed s s [] :=
  ⟨fun i => by simp, by simp, by simp, fun n => by simp [← hok.held], rfl⟩

theorem freed_left {s : State} (hok : PoolOk s) (target : PortId) (mode : Mode) :
    Freed s (s.left target mode) (s.leaving target mode) := by
  unfold State.left State.leaving
  split
  case isTrue => exact freed_leaveTrial hok target
  case isFalse => exact .nil hok

theorem State.mem_leaving {s : State} (h : TablesOk s) (target : PortId) (mode : Mode) (i : Nat) :
    i ∈ s.leaving target mode ↔ (s.port target).mode = .trial ∧ mode = .normal ∧ (s.hold i).isOpen = true ∧
      (s.hold i).card.isTrial = true ∧ (s.hold i).owner = target := by
  have hmem : i ∈ s.trialHoldsOf target ↔
      ((s.hold i).isOpen && (s.hold i).card.isTrial && (s.hold i).owner == target) = true :=
    look_iff_mem h.2 i (fun h => h.isOpen && h.card.isTrial && h.owner == target) rfl
  unfold State.leaving
  split
  case isTrue hleaves => rw [hmem]; simp [hleaves, and_assoc]
  case isFalse hstays =>
    simp only [List.not_mem_nil, false_iff]
    rintro ⟨htrial, hnormal, -⟩
    exact hstays ⟨htrial, hnormal⟩

theorem State.leaving_sorted {s : State} (h : TablesOk s) (target : PortId) (mode : Mode) :
    (s.leaving target mode).Pairwise (· < ·) := by
  unfold State.leaving
  split
  case isTrue => exact sorted_filter h.2 _
  case isFalse => exact .nil

/-- Role and mode written on the port of a state. -/
def State.writeRole (s : State) (target : PortId) (role : Role) (mode : Mode) : State :=
  s.modifyPort target fun port => { port with role := role, mode := mode }

theorem State.writePort_till (s : State) (target : PortId) (mode : Mode) :
    s.writePort target .till mode = ((s.left target mode).writeRole target .till mode).dropCloseOf target .roleChange :=
  rfl

theorem State.writePort_office (s : State) (target : PortId) (mode : Mode) :
    s.writePort target .office mode = (s.left target mode).writeRole target .office mode :=
  rfl

theorem State.otherOffice_iff (s : State) (target : PortId) :
    s.otherOffice target = true ↔ ∃ q, q ≠ target ∧ (s.port q).role = .office := by
  have hmem : ∀ q : PortId, q ∈ allPorts := by decide
  simp [State.otherOffice, hmem]

/-- What the writes of SET-PORT leave of the ports and the accounts (R131, R159). -/
theorem writePort_effects (s : State) (target : PortId) (role : Role) (mode : Mode)
    (hports : (s.left target mode).ports = s.ports) (haccounts : (s.left target mode).accounts = s.accounts) :
    let w := s.writePort target role mode
    let owns := role = .till ∧ s.accounts.close.owner? = some target
    OnePort s w target { s.port target with
      role := role, mode := mode
      notices := if owns then pushNotice (.closeDropped s.accounts.day .roleChange) (s.port target).notices
        else (s.port target).notices } ∧
    w.accounts = (if owns then { s.accounts with
      current := s.accounts.current.add s.accounts.next, next := .zero, close := .opened } else s.accounts) ∧
    w = { s.left target mode with ports := w.ports, accounts := w.accounts } := by
  intro w owns
  have hport : ∀ q, (s.left target mode).port q = s.port q := fun q => by rw [State.port, State.port, hports]
  have one : OnePort s ((s.left target mode).writeRole target role mode) target
      { s.port target with role := role, mode := mode } := .of_ports (by
    rw [State.writeRole, State.modifyPort, hport]
    exact congrArg (fun v : Vector Port 6 => v.set target.val _ target.isLt) hports)
  cases role with
  | office =>
    have howns : ¬owns := fun h => by cases h.1
    simp only [if_neg howns]
    exact ⟨one, haccounts, rfl⟩
  | till =>
    have dropped := closeDropped_dropCloseOf ((s.left target mode).writeRole target .till mode) target .roleChange
    have hrole : ((s.left target mode).writeRole target .till mode).accounts = s.accounts := haccounts
    have howns : owns ↔ s.accounts.close.owner? = some target := and_iff_right rfl
    simp only [howns]
    have port := one.trans dropped.port
    rw [hrole, one.written] at port
    refine ⟨port, ?_, dropped.rest⟩
    rw [← hrole]
    exact dropped.accounts

/-- Settles O46: the two refusals, and the accepted write over the freed holds. -/
theorem setPortWritesRoleAndMode : Obligations.SetPortWritesRoleAndMode := by
  intro s s1 p tag target role mode hgrant hok owns
  refine ⟨fun hrole hmode => ?_, fun hrole hlast => ?_, fun hfield hoffice => ?_⟩
  · exact exec_of_only hgrant rfl (if_pos ⟨hrole, hmode⟩)
  · have hfield : ¬(role = .office ∧ mode = .trial) := by simp [hrole]
    have hnone : (!s1.otherOffice target) = true := by
      rw [Bool.not_eq_true', ← Bool.not_eq_true, State.otherOffice_iff]
      rintro ⟨q, hq, hr⟩
      rw [hlast q hq] at hr
      cases hr
    exact exec_of_only hgrant rfl ((if_neg hfield).trans (if_pos ⟨hrole, hnone⟩))
  · have hlast : ¬(role = .till ∧ (!s1.otherOffice target) = true) := by
      rintro ⟨hr, hnone⟩
      rw [(s1.otherOffice_iff target).mpr (hoffice hr)] at hnone
      cases hnone
    have freed := freed_left hok target mode
    obtain ⟨port, accounts, rest⟩ := writePort_effects s1 target role mode (by rw [freed.rest]) (by rw [freed.rest])
    refine ⟨s1.writePort target role mode, s1.leaving target mode,
      exec_of_only hgrant rfl ((if_neg hfield).trans (if_neg hlast)), port, accounts,
      State.leaving_sorted hok.tables target mode, State.mem_leaving hok.tables target mode, ?_, ?_, ?_, ?_, ?_⟩
    · intro i
      rw [rest]
      exact freed.hold i
    · rw [rest]
      exact freed.free
    · rw [rest]
      exact freed.expiry
    · intro n
      rw [rest]
      exact freed.cards n
    · rw [rest, freed.rest]

/-! ### SET-TIMING, RESET-PORT and RESTORE-PORT -/

/-- Settles O47: the refusal, and the write with the gap compared against the new setting. -/
theorem setTimingWritesTheSettings : Obligations.SetTimingWritesTheSettings := by
  intro s s1 p tag target timeout recovery window base divisor hgrant
  refine ⟨fun hbase hdivisor => exec_of_only hgrant rfl (if_pos ⟨hbase, hdivisor⟩), fun hok => ?_⟩
  intro t w late
  have hfield : ¬(base = .divided ∧ divisor = 0) := by
    rintro ⟨rfl, rfl⟩
    exact hok.elim (fun h => by cases h) fun h => h rfl
  have hexec : exec .setTiming s = .next (w.gapCheck target) := by
    rw [exec_of_granted hgrant rfl, Request.work, setLineTiming, if_neg hfield]
    rfl
  have hport : w.port target = { s1.port target with timeout := timeout, recovery := recovery } :=
    s1.port_modifyPort_self target fun x => { x with timeout := timeout, recovery := recovery }
  refine ⟨fun hlate => hexec.trans ?_, fun hlate => hexec.trans ?_⟩
  · rw [State.gapCheck, hport, if_neg hlate]
  · rw [State.gapCheck, hport, if_pos hlate]

/-- Settles O48: the reset follows the grant's answer, and is the queues emptied and the port's close dropped. -/
theorem portResetEmptiesThePort : Obligations.PortResetEmptiesThePort := by
  refine ⟨fun s s1 p tag target hgrant => exec_of_granted hgrant rfl, fun s target => ?_⟩
  intro t owns
  let emptied : Port := { s.port target with requests := [], answers := [], notices := [], receiver := .hunt, gap := 0 }
  let s2 : State := (s.modifyPort target fun _ => emptied).discardInFlight target
  have one : OnePort s s2 target emptied := .of_ports rfl
  have dropped : CloseDropped s2 t target .portReset := closeDropped_dropCloseOf s2 target .portReset
  have port := one.trans dropped.port
  rw [one.written] at port
  refine ⟨port, ?_, dropped.accounts, ?_⟩
  · rw [dropped.rest]
    rfl
  · have hrest := dropped.rest
    rw [hrest]
    rfl

/-- A port made ACTIVE, as one write of its record (R167, R168, R170). -/
theorem State.makeActive_eq (s : State) (p : PortId) (cause : HealthCause) :
    s.makeActive p cause = s.modifyPort p fun x =>
      { x with
        errorCount := 0, health := .active, idleRun := 0
        notices := if x.health = .active then x.notices else pushNotice (.portState p x.health .active 0 cause) x.notices } := by
  unfold State.makeActive
  dsimp only
  split
  case isTrue h => exact State.modifyPort_congr (by simp only [h, if_true])
  case isFalse h =>
    rw [State.notify, State.modifyPort_modifyPort]
    exact State.modifyPort_congr (by simp only [h, if_false, Function.comp])

/-- Settles O49: the work of RESTORE-PORT is the target made ACTIVE. -/
theorem restorePortMakesActive : Obligations.RestorePortMakesActive := by
  intro s s1 p tag target hgrant x
  refine exec_of_only hgrant rfl ?_
  rw [Request.work, restoreTarget, State.makeActive_eq]
  rfl

/-! ### Entry to OFF -/

/-- The port's own writes of an entry to OFF, before its notices (R166). -/
def State.cutOff (s : State) (p : PortId) : State :=
  (s.modifyPort p fun port =>
    { port with errorCount := 255, health := .off, idleRun := 0, requests := [], answers := [] }).discardInFlight p

theorem State.enterOff_eq (s : State) (p : PortId) :
    let noticed := (s.cutOff p).notifyOff p (.portState p (s.port p).health .off 255 .errors)
    s.enterOff p = noticed.showDrop (noticed.dropCloseOf p .portOff) :=
  rfl

theorem State.showDrop_of_dropped {s t : State} {p : PortId} (h : s.accounts.close.owner? = some p)
    (ht : t.accounts.close = .opened) : s.showDrop t = { t with
      inFlight := t.inFlight.map fun f => { f with before := { f.before with close := none } } } := by
  have hafter : t.accounts.close.owner? = none := by rw [ht]; rfl
  simp [State.showDrop, h, hafter]

theorem State.showDrop_of_kept {s t : State} (h : t.accounts = s.accounts) : s.showDrop t = t := by
  rw [State.showDrop, h]
  cases s.accounts.close.owner? <;> rfl

/-- What STATUS reads of a close in the grant in progress after the port's own close was dropped (R158, log 9). -/
theorem showDrop_dropCloseOf (s : State) (p : PortId) (cause : DropCause) :
    s.showDrop (s.dropCloseOf p cause) = { s.dropCloseOf p cause with
      inFlight := if s.accounts.close.owner? = some p then
        s.inFlight.map fun f => { f with before := { f.before with close := none } } else s.inFlight } := by
  have dropped := closeDropped_dropCloseOf s p cause
  have hflight : (s.dropCloseOf p cause).inFlight = s.inFlight := by rw [dropped.rest]
  have haccounts := dropped.accounts
  by_cases h : s.accounts.close.owner? = some p
  · rw [if_pos h] at haccounts ⊢
    rw [State.showDrop_of_dropped h (by rw [haccounts]), hflight]
  · rw [if_neg h] at haccounts ⊢
    rw [State.showDrop_of_kept haccounts, ← hflight]

/-- Settles O22: the notices of the entry reach the ports they name, and the close the port owns is dropped after them. -/
theorem entryToOffCutsThePortOff : Obligations.EntryToOffCutsThePortOff := by
  intro s p t n owns
  let cut := s.cutOff p
  let noticed := cut.notifyOff p n
  have one : OnePort s cut p { s.port p with
      errorCount := 255, health := .off, idleRun := 0, requests := [], answers := [] } := .of_ports rfl
  have dropped : CloseDropped noticed (noticed.dropCloseOf p .portOff) p .portOff := closeDropped_dropCloseOf _ _ _
  have hnoticed : noticed = { cut with ports := noticed.ports } := State.notifyOff_rest cut p n
  have haccounts : noticed.accounts = s.accounts := by rw [hnoticed]; rfl
  have hflight : noticed.inFlight = s.inFlight.map fun f => if f.port = p then { f with discarded := true } else f := by
    rw [hnoticed]
    rfl
  have ht : t = { noticed.dropCloseOf p .portOff with
      inFlight := if owns then
        noticed.inFlight.map fun f => { f with before := { f.before with close := none } } else noticed.inFlight } := by
    have := showDrop_dropCloseOf noticed p .portOff
    rw [haccounts] at this
    exact this
  have hother : ∀ q, q ≠ p → t.port q = if (s.port q).role = .office then
      { s.port q with notices := pushNotice n (s.port q).notices } else s.port q := by
    intro q hq
    rw [ht]
    refine (dropped.port.others q hq).trans ?_
    rw [State.port_notifyOff, one.others q hq]
    simp only [hq, false_or]
  refine ⟨?_, fun q hq hr => ?_, fun q hq hr => ?_, ?_, ?_, ?_⟩
  · rw [ht]
    refine dropped.port.written.trans ?_
    rw [haccounts, State.port_notifyOff, if_pos (.inl rfl), one.written]
  · rw [hother q hq, if_pos hr]
  · rw [hother q hq, if_neg (by simp [hr])]
  · rw [ht]
    by_cases h : owns
    · simp only [hflight, if_pos h, Option.map_map]
      congr 1
      funext f
      simp only [Function.comp]
      split <;> rfl
    · simp only [hflight, if_neg h]
      congr 1
      funext f
      split <;> rfl
  · rw [ht]
    refine dropped.accounts.trans ?_
    rw [haccounts]
  · have hframe : ∀ ports accounts, ({ noticed with ports := ports, accounts := accounts } : State) =
        { s with ports := ports, accounts := accounts, inFlight := noticed.inFlight } := fun _ _ => by
      rw [hnoticed]
      rfl
    have hrest := dropped.rest.trans (hframe _ _)
    rw [ht, hrest]

end Sys2Proof.Machine
end

section
/-! PROOFS. The line of a port: the receiver's stages, link errors and time-outs, the judgement of a frame, and the good
IDLE frames. -/

namespace Sys2Proof.Machine

/-! ### A byte -/

/-- The rows that carry a byte are one: the receiver's stage decides what the byte is (log 2). -/
theorem exec_byte {p : PortId} {b : Byte} {c : Instr}
    (h : c ∈ [Instr.byteReceived p b, .frameReceived p b, .idle p b, .badLength p b, .idleRecovery p b]) (s : State) :
    exec c s = .next (s.receiveByte p b) := by
  simp only [List.mem_cons, List.not_mem_nil, or_false] at h
  rcases h with rfl | rfl | rfl | rfl | rfl <;> rfl

theorem State.receiveByte_hunt {s : State} {p : PortId} (hhigh : s.resetLow = false) (h : (s.port p).receiver = .hunt)
    (b : Byte) : s.receiveByte p b = if b = Config.startByte then s.receiverTo p .length else s := by
  simp only [State.receiveByte, hhigh, h, Bool.false_eq_true, if_false]

theorem State.receiveByte_length {s : State} {p : PortId} (hhigh : s.resetLow = false) (h : (s.port p).receiver = .length)
    (b : Byte) : s.receiveByte p b =
      if 2 ≤ b.toNat ∧ b.toNat ≤ 60 then s.receiverTo p (.body b.toNat []) else (s.receiverTo p .hunt).linkError p := by
  simp only [State.receiveByte, hhigh, h, Bool.false_eq_true, if_false]

theorem State.receiveByte_inBody {s : State} {p : PortId} {n : Nat} {got : List Byte} (hhigh : s.resetLow = false)
    (h : (s.port p).receiver = .body n got) (b : Byte) : s.receiveByte p b =
      if n ≤ got.length + 1 then s.receiverTo p (.check (got ++ [b]) none) else s.receiverTo p (.body n (got ++ [b])) := by
  simp only [State.receiveByte, hhigh, h, Bool.false_eq_true, if_false]

theorem State.receiveByte_firstCheck {s : State} {p : PortId} {body : List Byte} (hhigh : s.resetLow = false)
    (h : (s.port p).receiver = .check body none) (b : Byte) :
    s.receiveByte p b = s.receiverTo p (.check body (some b)) := by
  simp only [State.receiveByte, hhigh, h, Bool.false_eq_true, if_false]

theorem State.receiveByte_lastCheck {s : State} {p : PortId} {body : List Byte} {high : Byte} (hhigh : s.resetLow = false)
    (h : (s.port p).receiver = .check body (some high)) (b : Byte) :
    s.receiveByte p b = (s.receiverTo p .hunt).frameComplete p body high b := by
  simp only [State.receiveByte, hhigh, h, Bool.false_eq_true, if_false]

/-- Settles O18: the receiver's stages one by one. -/
theorem receiverStagesTakeBytes : Obligations.ReceiverStagesTakeBytes := by
  intro s p b c hc takes
  rw [exec_byte hc s]
  have moved {r : Receiver} (h : s.receiveByte p b = s.receiverTo p r) : takes r :=
    ⟨s.receiverTo p r, by rw [exec_byte hc s, h], .of_ports rfl, rfl⟩
  refine ⟨fun hlow => by rw [State.receiveByte_of_low hlow], fun hhigh => ⟨fun h hb => ?_, fun h hb => ?_,
    fun h hshort hlong => ?_, fun n got h hmore => ?_, fun n got h hlast => ?_, fun body h => ?_⟩⟩
  · rw [State.receiveByte_hunt hhigh h, if_neg (show ¬b = Config.startByte from hb)]
  · exact moved ((State.receiveByte_hunt hhigh h b).trans (if_pos (show b = Config.startByte from hb)))
  · exact moved ((State.receiveByte_length hhigh h b).trans (if_pos ⟨hshort, hlong⟩))
  · exact moved ((State.receiveByte_inBody hhigh h b).trans (if_neg (not_le.mpr hmore)))
  · exact moved ((State.receiveByte_inBody hhigh h b).trans (if_pos hlast))
  · exact moved (State.receiveByte_firstCheck hhigh h b)

/-! ### Link errors and time-outs -/

theorem State.raiseCount_of_room {s : State} {p : PortId} {k : Nat} (h : (s.port p).health ≠ .off)
    (hk : (s.port p).errorCount + k ≤ 255) : s.raiseCount p k = s.setCount p ((s.port p).errorCount + k) .errors := by
  rw [State.raiseCount, if_neg h, if_neg (not_lt.mpr hk)]

theorem State.raiseCount_past {s : State} {p : PortId} {k : Nat} (h : (s.port p).health ≠ .off)
    (hk : 255 < (s.port p).errorCount + k) : s.raiseCount p k = s.enterOff p := by
  rw [State.raiseCount, if_neg h, if_pos hk]

/-- Settles O19: where a byte is a link error, what a link error counts, and what a new count writes. -/
theorem linkErrorsAreCounted : Obligations.LinkErrorsAreCounted := by
  intro s p b hunting
  refine ⟨fun hhigh h hb => ?_, fun body high hhigh h hcrc => ?_, fun hoff => if_pos hoff, fun hoff hpast => ?_,
    fun hoff hroom => ?_, fun count cause => ?_⟩
  · rw [exec_byte (p := p) (b := b) (by simp), State.receiveByte_length hhigh h, if_neg (by omega)]
    rfl
  · rw [exec_byte (p := p) (b := b) (by simp), State.receiveByte_lastCheck hhigh h, State.frameComplete, if_neg hcrc]
    rfl
  · exact (if_neg hoff).trans (State.raiseCount_past hoff hpast)
  · exact (if_neg hoff).trans (State.raiseCount_of_room hoff hroom)
  · intro t before after
    have ht : t = _ := s.setCount_eq p count cause
    rw [healthOfCount_eq] at ht
    rw [ht]
    exact ⟨onePort_modifyPort s p _, rfl⟩

/-- Settles O23: the gap under way against the setting as it stands. -/
theorem linkTimeoutEndsTheFrame : Obligations.LinkTimeoutEndsTheFrame := by
  intro s p gap g port
  refine ⟨fun h => congrArg Host.Outcome.next (if_pos h), fun hhigh hframe => ?_⟩
  let waiting : State := s.modifyPort p fun x => { x with gap := g }
  have hexec : exec (.linkTimeout p gap) s = .next (waiting.gapCheck p) := by
    refine congrArg Host.Outcome.next (if_neg ?_)
    rintro (hlow | hhunt)
    · rw [hhigh] at hlow
      cases hlow
    · exact hframe hhunt
  have hport : waiting.port p = { port with gap := g } := s.port_modifyPort_self p _
  refine ⟨fun hwithin => hexec.trans ?_, fun hset hlate => ?_⟩
  · rw [State.gapCheck, hport, if_neg fun ⟨_, hset, hlate⟩ => hwithin.elim hset (not_le.mpr hlate)]
  · intro t
    have ht : waiting.timeOut p = match port.recovery with
        | .drop => t
        | .reset => t.showDrop (t.portReset p) := by
      have hcut : waiting.modifyPort p (fun x => { x with receiver := .hunt, gap := 0 }) =
          s.modifyPort p fun x => { x with receiver := .hunt, gap := 0 } :=
        s.modifyPort_modifyPort p _ _
      simp only [State.timeOut, hcut, hport]
      rfl
    have hout : exec (.linkTimeout p gap) s = .next (waiting.timeOut p) := by
      rw [hexec, State.gapCheck, hport, if_pos ⟨hframe, hset, hlate⟩]
    exact ⟨fun hdrop => by rw [hout, ht, hdrop], fun hreset => by rw [hout, ht, hreset]⟩

/-! ### A complete frame -/

/-- The last byte of a frame with a matching CRC: the frame is taken with the receiver back in HUNT (R149, R150). -/
theorem State.receiveByte_frame {s : State} {p : PortId} {body : List Byte} {high b : Byte} (hhigh : s.resetLow = false)
    (h : (s.port p).receiver = .check body (some high)) (h1 : high = highByte (frameCrc body))
    (h2 : b = lowByte (frameCrc body)) :
    let t := s.modifyPort p fun port => { port with receiver := .hunt, gap := 0 }
    s.receiveByte p b = if (s.port p).health = .off then t.frameInOff p body else t.frameJudged p body := by
  intro t
  have hhealth : ((s.receiverTo p .hunt).port p).health = (s.port p).health := by
    rw [State.receiverTo, State.port_modifyPort_self]
  rw [State.receiveByte_lastCheck hhigh h, State.frameComplete, if_pos ⟨h1, h2⟩, hhealth]
  rfl

theorem isIdleBody_iff (body : List Byte) : isIdleBody body = true ↔ body.length = 2 ∧ (body.drop 1).headD 0 = 0 := by
  simp [isIdleBody, bodyKind]

/-- Settles O21: an idle body at a port below OFF and in OFF, before and at the 64th of the run, and any other body in
OFF. -/
theorem idleFramesRecoverAPort : Obligations.IdleFramesRecoverAPort := by
  intro s p b high body hhigh h h1 h2 t idle run
  have hport : t.port p = { s.port p with receiver := .hunt, gap := 0 } := s.port_modifyPort_self p _
  have hrun : (t.port p).idleRun = run := by rw [hport]
  have hidle : isIdleBody body = true ↔ idle := isIdleBody_iff body
  have inOff (hoff : (s.port p).health = .off) : s.receiveByte p b = t.frameInOff p body :=
    (State.receiveByte_frame hhigh h h1 h2).trans (if_pos hoff)
  refine ⟨fun hi hoff => ?_, fun hi hoff hmore => ?_, fun hi hoff hlast => ?_, fun hi hoff => ?_⟩
  all_goals rw [exec_byte (p := p) (b := b) (by simp)]
  · rw [State.receiveByte_frame hhigh h h1 h2, if_neg hoff, State.frameJudged, judge, if_pos (hidle.mpr hi)]
    simp only [State.goodFrame]
    rw [hport]
  · rw [inOff hoff, State.frameInOff, if_pos (hidle.mpr hi), hrun, if_neg (show ¬Config.idleRunGoal ≤ run + 1 from not_le.mpr hmore)]
    exact congrArg Host.Outcome.next (State.modifyPort_congr (by rw [hrun]))
  · rw [inOff hoff, State.frameInOff, if_pos (hidle.mpr hi), hrun, if_pos (show Config.idleRunGoal ≤ run + 1 from hlast),
      State.makeActive_eq]
    exact congrArg Host.Outcome.next (State.modifyPort_congr (by rw [hport]; simp [hoff]))
  · rw [inOff hoff, State.frameInOff, if_neg (hidle.not.mpr hi)]

/-! ### The checks of R152 -/

theorem fieldNat_first (f : List Byte) : fieldNat f 0 1 = (f.headD 0).toNat := by
  cases f <;> simp [fieldNat, bytesNat]

/-- Which role permits which kind at arrival (R153, log 14). -/
theorem arrivalPermitted_iff (role : Role) (p : PortId) (k : Kind) (f : List Byte) :
    arrivalPermitted role p k f = true ↔
      if k ∈ [Kind.reserve, .renew, .capture, .release, .redeem, .load] then role = .till
      else if k ∈ [Kind.idle, .probe, .collect, .ident] then True
      else if k = .portStatus then role = .office ∨ (f.headD 0).toNat = p.val
      else role = .office := by
  cases k
  case portStatus => simp [arrivalPermitted, fieldNat_first]
  all_goals cases role <;> simp [arrivalPermitted, Kind.permitted]

theorem judge_of_not_idle {role : Role} {p : PortId} {body : List Byte} (h : isIdleBody body = false) :
    judge role p body = judgeKind role p ((body.drop 1).headD 0) (body.drop 2) := by
  simp only [judge, h, Bool.false_eq_true, if_false, bodyKind]

/-- The places of a port count its queues and the grant in progress. -/
theorem State.takenPlaces_congr {s w : State} {p : PortId} (hrequests : (w.port p).requests = (s.port p).requests)
    (hanswers : (w.port p).answers = (s.port p).answers) (hflight : w.inFlight = s.inFlight) :
    w.takenPlaces p = s.takenPlaces p := by
  rw [State.takenPlaces, State.takenPlaces, hrequests, hanswers, hflight]

/-- A refusal at arrival, at a port below OFF: the entry to OFF, the count without a place, the count with an answer
(R152, R154, R166). -/
theorem State.refuseAtArrival_cases {s : State} {p : PortId} (hoff : (s.port p).health ≠ .off) (tag : Byte)
    (o : OutcomeCode) :
    let count := (s.port p).errorCount
    let room := s.takenPlaces p < 8
    (255 ≤ count → s.refuseAtArrival p tag o = s.enterOff p) ∧
    (count < 255 → ¬room → s.refuseAtArrival p tag o = s.setCount p (count + 1) .errors) ∧
    (count < 255 → room →
      s.refuseAtArrival p tag o = (s.pushAnswer p tag (.plain o)).setCount p (count + 1) .errors) := by
  intro count room
  have hnoRoom : decide (s.freePlaces p = 0) = true ↔ ¬room := by
    rw [decide_eq_true_iff, State.freePlaces_eq_zero, not_lt]
  have henters : s.wouldEnterOff p 1 = true ↔ 255 ≤ count := by
    simp [State.wouldEnterOff, hoff, count]
  refine ⟨fun hc => ?_, fun hc hr => ?_, fun hc hr => ?_⟩
  · rw [State.refuseAtArrival, henters.mpr hc, Bool.true_or, if_pos rfl, State.raiseCount_past hoff (by omega)]
  · rw [State.refuseAtArrival, hnoRoom.mpr hr, Bool.or_true, if_pos rfl, State.raiseCount_of_room hoff (by omega)]
  · have hstays : (s.wouldEnterOff p 1 || decide (s.freePlaces p = 0)) = false := by
      rw [← Bool.not_eq_true, Bool.or_eq_true, henters, hnoRoom, not_or, not_not]
      exact ⟨not_le.mpr hc, hr⟩
    have hport : (s.pushAnswer p tag (.plain o)).port p =
        { s.port p with answers := (s.port p).answers ++ [⟨tag, .plain o⟩] } := by
      rw [State.port_pushAnswer, if_pos rfl]
    rw [State.refuseAtArrival, hstays, if_neg Bool.false_ne_true, State.raiseCount_of_room]
    · rw [hport]
    · rw [hport]
      exact hoff
    · rw [hport]
      exact hc

/-- The intake of a request: lost, answered BUSY, or taken (R154, R155). -/
theorem State.intake_cases (s : State) (p : PortId) (tag : Byte) (r : Request) :
    let room := s.takenPlaces p < 8
    let full := 4 ≤ (s.port p).requests.length ∨ ¬room
    (full → ¬room → s.intake p tag r = s) ∧
    (full → room → s.intake p tag r = s.pushAnswer p tag (.plain .busy)) ∧
    (¬full → s.intake p tag r =
      (s.modifyPort p fun port => { port with requests := port.requests ++ [⟨tag, r⟩] }).setCount p
        ((s.port p).errorCount - 1) .goodFrames) := by
  intro room full
  have hfull : s.queueFull p = true ↔ full := by
    rw [State.queueFull_iff]
    exact or_congr_right not_lt.symm
  have hnoRoom : s.freePlaces p = 0 ↔ ¬room := by rw [State.freePlaces_eq_zero, not_lt]
  refine ⟨fun hf hr => ?_, fun hf hr => ?_, fun hf => ?_⟩
  · rw [State.intake, if_pos (hfull.mpr hf), if_pos (hnoRoom.mpr hr)]
  · rw [State.intake, if_pos (hfull.mpr hf), if_neg (hnoRoom.not.mpr (not_not.mpr hr))]
  · rw [State.intake, if_neg (hfull.not.mpr hf), State.goodFrame, State.port_modifyPort_self]

/-- Settles O20: the levels by the places of a port, and the judgement check by check. -/
theorem frameIsJudgedInOrder : Obligations.FrameIsJudgedInOrder := by
  refine ⟨fun s p => ⟨?_, ?_⟩, ?_⟩
  · rw [State.waitLevel, Bool.and_eq_true, Bool.not_eq_true', State.queueFull_iff]
  · simp [State.attnLevel]
  intro s p b high body hhigh h h1 h2 hoff t tag kindByte fields count role room full permitted refused hidle
  have hport : t.port p = { s.port p with receiver := .hunt, gap := 0 } := s.port_modifyPort_self p _
  have hplaces : t.takenPlaces p = s.takenPlaces p := State.takenPlaces_congr (by rw [hport]) (by rw [hport]) rfl
  have hrole : (t.port p).role = role := by rw [hport]
  have hcount : (t.port p).errorCount = count := by rw [hport]
  have hlength : (t.port p).requests = (s.port p).requests := by rw [hport]
  have hnot : isIdleBody body = false := Bool.eq_false_iff.mpr ((isIdleBody_iff body).not.mpr hidle)
  have judged : exec (.frameReceived p b) s = .next (match judgeKind role p kindByte fields with
      | .goodIdle => t.goodFrame p
      | .refused outcome => t.refuseAtArrival p tag outcome
      | .request r => t.intake p tag r) := by
    rw [exec_byte (p := p) (b := b) (by simp), State.receiveByte_frame hhigh h h1 h2, if_neg hoff, State.frameJudged,
      hrole, judge_of_not_idle hnot]
    rfl
  have refusedBy {o : OutcomeCode} (ho : judgeKind role p kindByte fields = .refused o) : refused o := by
    have cases := State.refuseAtArrival_cases (s := t) (p := p) (by rw [hport]; exact hoff) tag o
    simp only [hcount, hplaces] at cases
    obtain ⟨entered, counted, answered⟩ := cases
    rw [ho] at judged
    exact ⟨fun hc => judged.trans (congrArg _ (entered hc)), fun hc hr => judged.trans (congrArg _ (counted hc hr)),
      fun hc hr => judged.trans (congrArg _ (answered hc hr))⟩
  refine ⟨fun hk => refusedBy (by simp only [judgeKind, hk]), fun k hk => ⟨fun hlen => refusedBy ?_,
    fun hlen hp => refusedBy ?_, fun hlen hp => ⟨fun hnone => refusedBy ?_, fun r hr => ?_⟩⟩⟩
  · simp only [judgeKind, hk, if_pos hlen]
  · have harrival : (!arrivalPermitted role p k fields) = true := by
      rw [Bool.not_eq_true', ← Bool.not_eq_true]
      exact (arrivalPermitted_iff role p k fields).not.mpr hp
    simp only [judgeKind, hk, if_neg (not_not.mpr hlen), harrival, if_true]
  all_goals
    have harrival : arrivalPermitted role p k fields = true := (arrivalPermitted_iff role p k fields).mpr hp
  · simp only [judgeKind, hk, if_neg (not_not.mpr hlen), harrival, Bool.not_true, Bool.false_eq_true, if_false, hnone]
  · have hjudge : judgeKind role p kindByte fields = .request r := by
      simp only [judgeKind, hk, if_neg (not_not.mpr hlen), harrival, Bool.not_true, Bool.false_eq_true, if_false, hr]
    rw [hjudge] at judged
    obtain ⟨lost, busy, taken⟩ := t.intake_cases p tag r
    simp only [hcount, hplaces, hlength] at lost busy taken
    exact ⟨fun hf hroom => judged.trans (congrArg _ (lost hf hroom)),
      fun hf hroom => judged.trans (congrArg _ (busy hf hroom)), fun hf => judged.trans (congrArg _ (taken hf))⟩

end Sys2Proof.Machine
end

section
/-! PROOFS. The steps of the sweep units and the end of a sweep. -/

namespace Sys2Proof.Machine

/-! ### The end of a sweep -/

/-- A notice queue after the HOLDS-PURGED a sweep's end owes to a port (R117). -/
def Sweep.purgedNotices (w : Sweep) (q : PortId) (queue : List NoticeEntry) : List NoticeEntry :=
  match w.params with
  | .purge owner _ =>
    if 0 < w.results.freedCount ∧ owner = q then pushNotice (.holdsPurged w.results.freedCount w.results.freedAmount) queue
    else queue
  | _ => queue

theorem State.port_notifyPurged (s : State) (w : Sweep) (q : PortId) :
    (s.notifyPurged w).port q = { s.port q with notices := w.purgedNotices q (s.port q).notices } := by
  unfold State.notifyPurged Sweep.purgedNotices
  cases w.params with
  | purge owner till =>
    dsimp only
    by_cases hfreed : 0 < w.results.freedCount
    · rw [if_pos hfreed, State.port_notify]
      by_cases howner : owner = q
      · subst howner
        simp [hfreed]
      · simp [howner]
    · rw [if_neg hfreed, if_neg (fun h => hfreed h.1)]
  | search | tally | issueRun => rfl

theorem State.port_endSweep (s : State) (u : UnitId) (reason : SweepReason) (slot : Option Nat) (q : PortId) :
    let x := s.sweep u
    (s.endSweep u reason slot).port q = { s.port q with
      notices := if x.startPort = q then
          pushNotice (.sweepDone u reason x.cursor (x.report slot s.clock.time)) (x.purgedNotices q (s.port q).notices)
        else x.purgedNotices q (s.port q).notices } := by
  intro x
  have hpurged (r : PortId) := ((s.modifySweep u fun y => { y with running := false }).port_notifyPurged x r)
  unfold State.endSweep
  rw [State.port_notify]
  split
  case isTrue hq =>
    rw [hpurged, hq]
    rfl
  case isFalse hq =>
    rw [hpurged]
    rfl

/-- Settles O17: how a notice joins a queue, and the two notices of an end in their order. -/
theorem sweepEndQueuesItsNotices : Obligations.SweepEndQueuesItsNotices := by
  refine ⟨fun n queue h => if_pos h, fun n older youngest h => ?_, fun s u reason slot => ?_⟩
  · have hfull : ¬(older ++ [youngest]).length < Config.noticePlaces := by simp [h, Config.noticePlaces]
    rw [pushNotice, if_neg hfull, List.dropLast_concat]
  · intro x t report purged
    refine ⟨?_, fun v hv => ?_, s.port_endSweep u reason slot, s.endSweep_rest u reason slot⟩
    · rw [State.sweep_endSweep, if_pos rfl]
    · rw [State.sweep_endSweep, if_neg (Ne.symm hv)]

/-! ### SEARCH -/

/-- A unit's SEARCH with its slot counted and its cursor moved (R110). -/
def State.searched (s : State) (u : UnitId) (seen : Bool) : State :=
  s.modifySweep u fun _ =>
    { s.sweep u with
      cursor := (s.sweep u).cursor + 1
      results := { (s.sweep u).results with examined := (s.sweep u).results.examined + 1, blockedSeen := seen } }

/-- The mark of a skipped blocked card stays as it was at any other finding (R110). -/
theorem seen_of {f : Finding} (h : f ≠ .passedBlocked) (seen : Bool) : (seen || f == .passedBlocked) = seen := by
  rw [beq_false_of_ne h, Bool.or_false]

section

variable {s : State} {u : UnitId} {critA critB : Criterion} {skip : Bool}

theorem State.searchStep_hit
    (h : finding (s.slotCard (s.sweep u).cursor) s.accounts.day critA critB skip = .hit) (stop limit : Nat) :
    s.searchStep u stop critA critB limit skip =
      (s.searched u (s.sweep u).results.blockedSeen).endSweep u .hit (some (s.sweep u).cursor) := by
  simp only [State.searchStep, h]
  rw [← seen_of (by decide : Finding.hit ≠ .passedBlocked) (s.sweep u).results.blockedSeen]
  rfl

theorem State.searchStep_blockedEnd
    (h : finding (s.slotCard (s.sweep u).cursor) s.accounts.day critA critB skip = .blockedEnd) (stop limit : Nat) :
    s.searchStep u stop critA critB limit skip =
      (s.searched u (s.sweep u).results.blockedSeen).endSweep u .blockedEnd (some (s.sweep u).cursor) := by
  simp only [State.searchStep, h]
  rw [← seen_of (by decide : Finding.blockedEnd ≠ .passedBlocked) (s.sweep u).results.blockedSeen]
  rfl

/-- A slot passed: MISS at the end slot, LIMIT at the limit, else the sweep goes on (R110, R111). -/
def State.passedBy (s : State) (u : UnitId) (stop limit : Nat) (seen : Bool) : State :=
  if (s.sweep u).cursor = stop then (s.searched u seen).endSweep u .miss none
  else if (if limit = 0 then 65536 else limit) ≤ (s.sweep u).results.examined + 1 then
    (s.searched u seen).endSweep u .limit (some ((s.sweep u).cursor + 1))
  else s.searched u seen

theorem State.searchStep_passed
    (h : finding (s.slotCard (s.sweep u).cursor) s.accounts.day critA critB skip = .passed) (stop limit : Nat) :
    s.searchStep u stop critA critB limit skip = s.passedBy u stop limit (s.sweep u).results.blockedSeen := by
  simp only [State.searchStep, h, State.sweep_modifySweep_self]
  rw [← seen_of (by decide : Finding.passed ≠ .passedBlocked) (s.sweep u).results.blockedSeen]
  rfl

theorem State.searchStep_passedBlocked
    (h : finding (s.slotCard (s.sweep u).cursor) s.accounts.day critA critB skip = .passedBlocked) (stop limit : Nat) :
    s.searchStep u stop critA critB limit skip = s.passedBy u stop limit true := by
  simp only [State.searchStep, h, State.sweep_modifySweep_self]
  rw [← Bool.or_true (s.sweep u).results.blockedSeen]
  rfl

end

theorem exec_searchStep {s : State} {u : UnitId} {start stop : Nat} {critA critB : Criterion} {limit : Nat} {skip : Bool}
    (hu : s.nextSweep = some u) (hp : (s.sweep u).params = .search start stop critA critB limit skip) :
    exec .searchStep s = .next ((s.grantTo (.sweep u)).searchStep u stop critA critB limit skip) := by
  simp only [exec, execSearchStep, hu, hp]

/-- Settles O13: the relations and figures of a criterion, then the step by what it finds. -/
theorem searchStepJudgesItsSlot : Obligations.SearchStepJudgesItsSlot := by
  refine ⟨fun figure operand => ?_, fun c day operand rel => ?_, ?_⟩
  · simp [Relation.holds]
  · refine ⟨rfl, rfl, rfl, rfl, rfl, fun hlast => ?_, fun a hlast => ?_⟩ <;> simp [Criterion.met, Card.figure, hlast]
  intro s u start stop critA critB limit skip hu hp w c meets most swept passes
  have hexec := exec_searchStep hu hp
  have passed {seen : Bool}
      (h : (s.grantTo (.sweep u)).searchStep u stop critA critB limit skip =
        (s.grantTo (.sweep u)).passedBy u stop limit seen) : passes seen := by
    rw [h] at hexec
    refine ⟨fun hstop => hexec.trans ?_, fun hstop hlimit => hexec.trans ?_, fun hstop hlimit => hexec.trans ?_⟩
    · exact congrArg _ (if_pos hstop)
    · exact congrArg _ ((if_neg hstop).trans (if_pos hlimit))
    · exact congrArg _ ((if_neg hstop).trans (if_neg (not_le.mpr hlimit)))
  have hmeets : (critA.met c s.accounts.day && critB.met c s.accounts.day) = true ↔ meets := Bool.and_eq_true _ _ ▸ Iff.rfl
  refine ⟨fun hstate => passed (State.searchStep_passed ?_ stop limit),
    fun hstate hskip => passed (State.searchStep_passedBlocked ?_ stop limit),
    fun hstate hskip => hexec.trans (congrArg _ (State.searchStep_blockedEnd ?_ stop limit)),
    fun hstate hm => hexec.trans (congrArg _ (State.searchStep_hit ?_ stop limit)),
    fun hstate hm => passed (State.searchStep_passed ?_ stop limit)⟩
  all_goals change finding c s.accounts.day critA critB skip = _
  · rcases hstate with hstate | hstate <;> simp only [finding, hstate]
  · simp only [finding, hstate, hskip, if_true]
  · simp only [finding, hstate, hskip, Bool.false_eq_true, if_false]
  · simp only [finding, hstate, hmeets.mpr hm, if_true]
  · simp only [finding, hstate, Bool.eq_false_iff.mpr (hmeets.not.mpr hm), Bool.false_eq_true, if_false]

/-! ### TALLY -/

theorem exec_tallyStep {s : State} {u : UnitId} {start stop : Nat} (hu : s.nextSweep = some u)
    (hp : (s.sweep u).params = .tally start stop) :
    exec .tallyStep s = .next ((s.grantTo (.sweep u)).tallyStep u stop) := by
  simp only [exec, execTallyStep, hu, hp]

/-- What a card adds to a TALLY (R112). -/
theorem Card.contribution_of_issued {c : Card} (h : c.state = .active ∨ c.state = .blocked) :
    c.contribution = ⟨BitVec.ofNat 64 c.value, BitVec.ofNat 64 c.held, 1⟩ ∧ c.tallyCount = 1 := by
  rcases h with h | h <;> simp only [Card.contribution, Card.tallyCount, h, and_self]

theorem Card.contribution_of_not_issued {c : Card} (h : ¬(c.state = .active ∨ c.state = .blocked)) :
    c.contribution = ⟨0, 0, 0⟩ ∧ c.tallyCount = 0 := by
  cases hc : c.state
  case active => exact absurd (.inl hc) h
  case blocked => exact absurd (.inr hc) h
  all_goals
    simp only [Card.contribution, Card.tallyCount, hc, and_true]
    rfl

/-- Settles O14: the step with the card's contribution, by whether the card is issued. -/
theorem tallyStepAddsTheContribution : Obligations.TallyStepAddsTheContribution := by
  intro s u start stop hu hp w c issued swept ends
  have hends : ends (swept c.contribution.value c.contribution.held c.tallyCount) := exec_tallyStep hu hp
  refine ⟨fun h => ?_, fun h => ?_⟩
  · obtain ⟨hcontribution, hcount⟩ := Card.contribution_of_issued h
    rw [hcontribution, hcount] at hends
    exact hends
  · obtain ⟨hcontribution, hcount⟩ := Card.contribution_of_not_issued h
    rw [hcontribution, hcount] at hends
    exact hends

/-! ### PURGE -/

theorem exec_purgeStep {s : State} {u : UnitId} {owner : PortId} {till : Option TillId} (hu : s.nextSweep = some u)
    (hp : (s.sweep u).params = .purge owner till) :
    exec .purgeStep s = .next ((s.grantTo (.sweep u)).purgeStep u owner till) := by
  simp only [exec, execPurgeStep, hu, hp]

theorem Hold.matchesPurge_iff (h : Hold) (owner : PortId) (till : Option TillId) : h.matchesPurge owner till = true ↔
    h.isOpen = true ∧ h.owner = owner ∧ (till = none ∨ till = some h.till) := by
  simp [Hold.matchesPurge, and_assoc]

/-- A hold freed as a release by the PURGE of unit `u` (R116). -/
def State.purgedHold (s : State) (i : Nat) : State :=
  (s.freeHold i).noteActivity (s.hold i).card (s.hold i).owner (s.hold i).till .release

/-- A PURGE step at a matching hold, before its end is judged: the hold freed, counted, and the cursor moved (R116). -/
def State.purgedBy (s : State) (u : UnitId) : State :=
  ((s.purgedHold (s.sweep u).cursor).modifySweep u fun w =>
    { w with
      results :=
        { w.results with
          freedCount := w.results.freedCount + 1
          freedAmount := w.results.freedAmount + BitVec.ofNat 64 (s.hold (s.sweep u).cursor).amount } }).modifySweep u
    fun w => { w with cursor := (s.sweep u).cursor + 1 }

theorem State.purgeStep_matching {s : State} {u : UnitId} {owner : PortId} {till : Option TillId}
    (h : (s.hold (s.sweep u).cursor).matchesPurge owner till = true) : s.purgeStep u owner till =
      if Config.holdRecords ≤ (s.sweep u).cursor + 1 then (s.purgedBy u).endSweep u .done none else s.purgedBy u := by
  rw [State.purgeStep]
  simp only [h, if_true]
  rfl

theorem State.purgeStep_passing {s : State} {u : UnitId} {owner : PortId} {till : Option TillId}
    (h : ¬(s.hold (s.sweep u).cursor).matchesPurge owner till = true) : s.purgeStep u owner till =
      let t := s.modifySweep u fun w => { w with cursor := (s.sweep u).cursor + 1 }
      if Config.holdRecords ≤ (s.sweep u).cursor + 1 then t.endSweep u .done none else t := by
  rw [State.purgeStep]
  simp only [h, if_false, Bool.false_eq_true]

/-- Settles O15: a matching hold freed as by RELEASE, the unit itself unmoved by the drift of its own write. -/
theorem purgeStepFreesAMatch : Obligations.PurgeStepFreesAMatch := by
  intro s u owner till hu hp x i h c matching ends
  let g := s.grantTo (.sweep u)
  have hmatch : h.matchesPurge owner till = true ↔ matching := h.matchesPurge_iff owner till
  have ended {t : State} (ht : g.purgeStep u owner till =
      if Config.holdRecords ≤ i + 1 then t.endSweep u .done none else t) : ends t := by
    refine (exec_purgeStep hu hp).trans (congrArg _ (ht.trans ?_))
    simp only [Config.holdRecords, ← not_lt, ite_not]
  refine ⟨fun hm => ended (State.purgeStep_passing (hmatch.not.mpr hm)),
    fun hm => ⟨g.purgedBy u, ended (State.purgeStep_matching (hmatch.mpr hm)), ?_⟩⟩
  have moved := (holdMoved_freeHold g i).noteActivity h.owner h.till .release
  have hunit : (g.purgedHold i).sweep u = x :=
    (moved.drifts u).trans (afterChange_of_not_tally _ _ _ _ fun a b hab => by
      change (s.sweep u).params = _ at hab
      rw [hp] at hab
      cases hab)
  have hsweep : ∀ v, (g.purgedBy u).sweep v = if u = v then { x with
        cursor := i + 1
        results := { x.results with
          freedCount := x.results.freedCount + 1
          freedAmount := x.results.freedAmount + BitVec.ofNat 64 h.amount } } else (g.purgedHold i).sweep v := by
    intro v
    rw [State.purgedBy, State.modifySweep_modifySweep, State.sweep_modifySweep]
    split
    case isTrue => exact congrArg (fun y : Sweep => { y with
      cursor := i + 1
      results := { y.results with
        freedCount := y.results.freedCount + 1
        freedAmount := y.results.freedAmount + BitVec.ofNat 64 h.amount } }) hunit
    case isFalse => rfl
  refine ⟨(hsweep u).trans (if_pos rfl), fun v hv => ?_, ⟨moved.hold.written, moved.hold.others⟩,
    ⟨moved.card.written, moved.card.others⟩, moved.count, moved.free, moved.expiry, ?_⟩
  · rw [hsweep v, if_neg (Ne.symm hv)]
    exact moved.drifts v
  · have hrest := moved.rest
    change g.purgedBy u = { g with
      cards := (g.purgedHold i).cards, trialCards := (g.purgedHold i).trialCards, sweeps := (g.purgedBy u).sweeps
      holds := (g.purgedHold i).holds, freeList := (g.purgedHold i).freeList, expiry := (g.purgedHold i).expiry
      series := (g.purgedHold i).series }
    exact congrArg (fun t : State => { t with sweeps := (g.purgedBy u).sweeps }) hrest

/-! ### ISSUE-RUN -/

theorem exec_issueRunStep {s : State} {u : UnitId} {start stop stride value : Nat} (hu : s.nextSweep = some u)
    (hp : (s.sweep u).params = .issueRun start stop stride value) :
    exec .issueRunStep s = .next ((s.grantTo (.sweep u)).issueRunStep u stop stride value) := by
  simp only [exec, execIssueRunStep, hu, hp]

/-- An ISSUE-RUN step at a BLANK slot, before its end is judged (R120). -/
def State.issuedBy (s : State) (u : UnitId) (stride value : Nat) : State :=
  ((s.issueSlot (s.sweep u).cursor value).modifySweep u fun w =>
    { w with
      results :=
        { w.results with
          issuedCount := w.results.issuedCount + 1
          valueIssued := w.results.valueIssued + value } }).modifySweep u fun w =>
    { w with cursor := (s.sweep u).cursor + stride }

theorem State.issueRunStep_blank {s : State} {u : UnitId} (h : (s.slotCard (s.sweep u).cursor).state = .blank)
    (stop stride value : Nat) : s.issueRunStep u stop stride value =
      if stop < (s.sweep u).cursor + stride then (s.issuedBy u stride value).endSweep u .done none
      else s.issuedBy u stride value := by
  rw [State.issueRunStep]
  simp only [h, if_true]
  rfl

theorem State.issueRunStep_skipped {s : State} {u : UnitId} (h : (s.slotCard (s.sweep u).cursor).state ≠ .blank)
    (stop stride value : Nat) : s.issueRunStep u stop stride value =
      let t := s.modifySweep u fun w =>
        { w with cursor := (s.sweep u).cursor + stride, results := { w.results with skippedCount := w.results.skippedCount + 1 } }
      if stop < (s.sweep u).cursor + stride then t.endSweep u .done none else t := by
  rw [State.issueRunStep]
  simp only [h, if_false, State.modifySweep_modifySweep]
  rfl

/-- Settles O16: the slot issued as by ISSUE, or skipped. -/
theorem issueRunStepIssuesABlankSlot : Obligations.IssueRunStepIssuesABlankSlot := by
  intro s u start stop stride value hu hp x slot c ends
  let g := s.grantTo (.sweep u)
  have hexec : exec .issueRunStep s = .next (g.issueRunStep u stop stride value) := exec_issueRunStep hu hp
  refine ⟨fun hstate => hexec.trans (congrArg _ (State.issueRunStep_skipped (s := g) hstate stop stride value)), fun hstate =>
    ⟨g.issuedBy u stride value, hexec.trans (congrArg _ (State.issueRunStep_blank (s := g) hstate stop stride value)), ?_⟩⟩
  have written : RecordWritten g (g.issueSlot slot value) slot { c with state := .active, value := value } _ :=
    recordWritten_report g slot { c with state := .active, value := value } (.issue value)
  have hunit : (g.issueSlot slot value).sweep u = x :=
    (written.drifts u).trans (afterChange_of_not_tally _ _ _ _ fun a b hab => by
      change (s.sweep u).params = _ at hab
      rw [hp] at hab
      cases hab)
  have hsweep : ∀ v, (g.issuedBy u stride value).sweep v = if u = v then { x with
        cursor := slot + stride
        results := { x.results with
          issuedCount := x.results.issuedCount + 1
          valueIssued := x.results.valueIssued + value } } else (g.issueSlot slot value).sweep v := by
    intro v
    rw [State.issuedBy, State.modifySweep_modifySweep, State.sweep_modifySweep]
    split
    case isTrue => exact congrArg (fun y : Sweep => { y with
      cursor := slot + stride
      results := { y.results with
        issuedCount := y.results.issuedCount + 1
        valueIssued := y.results.valueIssued + value } }) hunit
    case isFalse => rfl
  refine ⟨(hsweep u).trans (if_pos rfl), fun v hv => ?_, ⟨written.one.written, written.one.others⟩, written.accounts, ?_⟩
  · rw [hsweep v, if_neg (Ne.symm hv)]
    exact written.drifts v
  · exact congrArg (fun t : State => { t with sweeps := (g.issuedBy u stride value).sweeps }) written.rest

end Sys2Proof.Machine
end

section
/-! PROOFS. Codes and slots, and the receiver of a whole frame with its CRC. -/

namespace Sys2Proof.Machine

/-! ### Codes and slots -/

theorem SeriesFields.accepts_iff (f : SeriesFields) (field : BitVec 28) :
    f.accepts field = true ↔ f.enabled = true ∧ field &&& f.mask = f.matchBits &&& f.mask := by
  simp [SeriesFields.accepts]

theorem SeriesFields.covers_iff (f : SeriesFields) (slot : Nat) :
    f.covers slot = true ↔ f.base ≤ slot ∧ slot < f.base + f.count := by
  simp [SeriesFields.covers]

/-- A code resolves by the first entry that accepts its series field (R3). -/
theorem State.resolve_iff (s : State) (c : CardCode) (slot : Nat) (e : EntryId) : s.resolve c = some (slot, e) ↔
    (s.entry e).fields.accepts (seriesField c) = true ∧
      (∀ o, o < e → ¬(s.entry o).fields.accepts (seriesField c) = true) ∧ serialField c < (s.entry e).fields.count ∧
      slot = (s.entry e).fields.base + serialField c := by
  have hfind := find_entries (fun o => (s.entry o).fields.accepts (seriesField c))
  unfold State.resolve
  split
  case h_1 hnone =>
    simp only [reduceCtorEq, false_iff]
    rintro ⟨haccepts, hfirst, -⟩
    rw [(hfind e).mpr ⟨haccepts, hfirst⟩] at hnone
    cases hnone
  case h_2 o hsome =>
    constructor
    · intro h
      split at h
      case isTrue hcount =>
        cases h
        obtain ⟨haccepts, hfirst⟩ := (hfind _).mp hsome
        exact ⟨haccepts, hfirst, hcount, rfl⟩
      case isFalse => cases h
    · rintro ⟨haccepts, hfirst, hcount, rfl⟩
      rw [(hfind e).mpr ⟨haccepts, hfirst⟩] at hsome
      cases hsome
      rw [if_pos hcount]

theorem State.governing_iff (s : State) (slot : Nat) (e : EntryId) : s.governing slot = some e ↔
    ((s.entry e).fields.enabled = true ∧ (s.entry e).fields.covers slot = true) ∧
      ∀ o, o < e → ¬((s.entry o).fields.enabled = true ∧ (s.entry o).fields.covers slot = true) := by
  have hfind := find_entries (fun o => (s.entry o).fields.enabled && (s.entry o).fields.covers slot) e
  simp only [Bool.and_eq_true] at hfind
  exact hfind

/-- With disjoint ranges the one enabled entry that covers a slot governs it (R5, R9). -/
theorem SeriesOk.governing_of_covers {s : State} (h : SeriesOk s) {slot : Nat} {e : EntryId}
    (henabled : (s.entry e).fields.enabled = true) (hcovers : (s.entry e).fields.covers slot = true) :
    s.governing slot = some e :=
  (s.governing_iff slot e).mpr ⟨⟨henabled, hcovers⟩, fun o ho ⟨ho1, ho2⟩ =>
    h.disjoint e o (ne_of_gt ho) henabled ho1 slot ⟨hcovers, ho2⟩⟩

theorem trialOfCode_val (c : CardCode) : (trialOfCode c).val = c.toNat % 4 := by
  simp [trialOfCode, BitVec.extractLsb'_toNat]

/-- The two halves of a code put together from a series field and a serial. -/
theorem code_halves (field : BitVec 28) (serial : Nat) :
    (field ++ BitVec.ofNat 20 serial).extractLsb' 20 28 = field ∧
      (field ++ BitVec.ofNat 20 serial).toNat % 2 ^ 20 = serial % 2 ^ 20 := by
  constructor
  · apply BitVec.eq_of_toNat_eq
    rw [BitVec.extractLsb'_toNat, BitVec.toNat_append, Nat.shiftRight_or_distrib, Nat.shiftLeft_shiftRight,
      Nat.shiftRight_eq_div_pow, Nat.div_eq_of_lt (BitVec.isLt _), Nat.or_zero, Nat.mod_eq_of_lt field.isLt]
  · rw [BitVec.toNat_append, Nat.shiftLeft_eq, Nat.mul_comm, ← Nat.two_pow_add_eq_or_of_lt (BitVec.isLt _),
      Nat.mul_add_mod, BitVec.toNat_ofNat, Nat.mod_mod]

/-- Settles O25: resolution and governing by the first entry in priority order, the target by the port's mode, and the
halves of a formed code. -/
theorem codesAndSlotsReachCards : Obligations.CodesAndSlotsReachCards := by
  intro s takes spans
  have hresolve (c : CardCode) (slot : Nat) (e : EntryId) : s.resolve c = some (slot, e) ↔
      takes e c ∧ (∀ o, o < e → ¬takes o c) ∧ c.toNat % 2 ^ 20 < (s.entry e).fields.count ∧
        slot = (s.entry e).fields.base + c.toNat % 2 ^ 20 := by
    have h := s.resolve_iff c slot e
    simp only [SeriesFields.accepts_iff, serialField_eq] at h
    exact h
  have hgoverning (slot : Nat) (e : EntryId) : s.governing slot = some e ↔ spans e slot ∧ ∀ o, o < e → ¬spans o slot := by
    have h := s.governing_iff slot e
    simp only [SeriesFields.covers_iff] at h
    exact h
  refine ⟨hresolve, hgoverning, fun hok c slot e h => ?_, fun p c hmode => ⟨trialOfCode c, trialOfCode_val c, ?_⟩,
    fun p c hmode h => ?_, fun p c slot e hmode h => ?_, fun c => rfl, fun slot => rfl, fun slot e h => ?_⟩
  · obtain ⟨⟨henabled, -⟩, -, hcount, rfl⟩ := (hresolve c slot e).mp h
    exact hok.governing_of_covers henabled ((SeriesFields.covers_iff _ _).mpr ⟨Nat.le_add_right _ _, by omega⟩)
  · simp only [State.target, hmode]
    rfl
  · simp only [State.target, hmode, h, Option.map_none]
  · simp only [State.target, hmode, h, Option.map_some]
  · simp only [State.codeOfSlot, h]
    exact code_halves _ _

/-! ### The CRC -/

/-- The CRC as one register over the bits of a run of bytes (R150). -/
theorem crc_eq_bits (bytes : List Byte) : crc bytes =
    (bytes.flatMap fun b => [7, 6, 5, 4, 3, 2, 1, 0].map fun i => b.getLsbD i).foldl crcBit 0xFFFF#16 := by
  rw [List.foldl_flatMap]
  simp only [List.foldl_map]
  rfl

theorem crcBit_eq (r : BitVec 16) (bit : Bool) :
    crcBit r bit = if r.getLsbD 15 = bit then r <<< 1 else (r <<< 1) ^^^ 0x1021#16 := by
  have hmsb : r.msb = r.getLsbD 15 := BitVec.msb_eq_getLsbD_last r
  simp only [crcBit, hmsb, bne_iff_ne, ne_eq, ite_not]

theorem highByte_toNat (r : BitVec 16) : (highByte r).toNat = r.toNat / 256 := by
  rw [highByte, BitVec.extractLsb'_toNat, Nat.shiftRight_eq_div_pow]
  have := r.isLt
  omega

theorem lowByte_toNat (r : BitVec 16) : (lowByte r).toNat = r.toNat % 256 := by
  rw [lowByte, BitVec.extractLsb'_toNat, Nat.shiftRight_zero]

/-! ### A whole frame -/

/-- The bytes of a frame but the last bring a receiver in HUNT to the check of its last byte (R149). -/
theorem receive_frame_but_last {s : State} {p : PortId} {body : List Byte} (hhigh : s.resetLow = false)
    (hhunt : (s.port p).receiver = .hunt) (h2 : 2 ≤ body.length) (h60 : body.length ≤ 60) :
    (Config.startByte :: lengthByte body :: (body ++ [highByte (frameCrc body)])).foldl (fun w b => w.receiveByte p b) s =
      s.receiverTo p (.check body (some (highByte (frameCrc body)))) := by
  have at_stage (r : Receiver) : ((s.receiverTo p r).port p).receiver = r := by
    rw [State.receiverTo, State.port_modifyPort_self]
  have hlength : (lengthByte body).toNat = body.length := by
    rw [lengthByte, BitVec.toNat_ofNat, Nat.mod_eq_of_lt (by omega)]
  have hstart : s.receiveByte p Config.startByte = s.receiverTo p .length := by
    rw [State.receiveByte_hunt hhigh hhunt, if_pos rfl]
  have hbody : (s.receiverTo p .length).receiveByte p (lengthByte body) = s.receiverTo p (.body body.length []) := by
    rw [State.receiveByte_length (s := s.receiverTo p .length) hhigh (at_stage _), if_pos (by omega), hlength,
      State.receiverTo_receiverTo]
  have hcheck := receiveByte_body s p hhigh body.length body [] (fun h => by simp [h] at h2) (by simp)
  rw [List.foldl_cons, List.foldl_cons, List.foldl_append, hstart, hbody, hcheck, List.nil_append, List.foldl_cons,
    List.foldl_nil, State.receiveByte_firstCheck (s := s.receiverTo p (.check body none)) hhigh (at_stage _),
    State.receiverTo_receiverTo]

/-- Settles O50: the register bit by bit, the layout of a frame, and its bytes taken one by one. -/
theorem receiverTakesEveryFrame : Obligations.ReceiverTakesEveryFrame := by
  refine ⟨fun bytes => ?_, fun body => ⟨rfl, rfl⟩, fun r => ⟨highByte_toNat r, lowByte_toNat r⟩, ?_⟩
  · rw [crc_eq_bits]
    exact congrArg (fun f => List.foldl f _ _) (funext fun r => funext fun bit => crcBit_eq r bit)
  intro s p body hhigh hhunt h2 h60 t
  let u : State := s.receiverTo p (.check body (some (highByte (frameCrc body))))
  have hport : u.port p = { s.port p with receiver := .check body (some (highByte (frameCrc body))), gap := 0 } :=
    s.port_modifyPort_self p _
  refine ⟨Config.startByte :: lengthByte body :: (body ++ [highByte (frameCrc body)]), lowByte (frameCrc body), ?_, u,
    receive_frame_but_last hhigh hhunt h2 h60, ?_, ?_⟩
  · simp [frame]
  · exact State.modifyPort_congr (by rw [hport])
  · have hback : u.modifyPort p (fun port => { port with receiver := .hunt, gap := 0 }) = t :=
      s.receiverTo_receiverTo p _ .hunt
    have hframe := State.receiveByte_frame (s := u) (p := p) hhigh (by rw [hport]) rfl rfl
    rw [hback, hport] at hframe
    rw [exec_byte (p := p) (b := lowByte (frameCrc body)) (by simp), hframe]

end Sys2Proof.Machine
end

section
/-! PROOFS. The bytes of an answer: each record as its fields laid out by width, and the lengths of the bodies. -/

namespace Sys2Proof.Machine

/-! ### Records as laid-out fields -/

theorem natBytes_one (v : Nat) : natBytes 1 v = [BitVec.ofNat 8 v] := by
  simp [natBytes]

theorem boolByte_eq (b : Bool) : boolByte b = BitVec.ofNat 8 b.toNat := by
  cases b <;> rfl

theorem markByte_eq (trial short : Bool) : markByte trial short = BitVec.ofNat 8 (trial.toNat + 2 * short.toNat) := by
  cases trial <;> cases short <;> rfl

theorem Figures.bytes_eq_laidOut (f : Figures) : f.bytes = laidOut f.layout := by
  simp [Figures.bytes, Figures.layout, wordBytes]

theorem SweepReport.bytes_eq_laidOut (r : SweepReport) : r.bytes = laidOut r.layout := by
  cases r <;> simp [SweepReport.bytes, SweepReport.layout, slotBytes, sumBytes, timeBytes, natBytes_one, boolByte_eq]

theorem Notice.kindByte_eq_layout (n : Notice) : n.kindByte = BitVec.ofNat 8 n.layout.1 := by
  cases n with
  | holdExpired tag card amount till => cases card <;> rfl
  | holdsPurged | sweepDone | closeDropped | portState => rfl

theorem Notice.bytes_eq_laidOut (n : Notice) : n.bytes = laidOut n.layout.2 := by
  cases n with
  | holdExpired tag card amount till =>
    cases card <;> simp [Notice.bytes, Notice.layout, NoticeCard.bytes, pairBytes, codeBytes, amountBytes, natBytes_one]
  | holdsPurged count amount => simp [Notice.bytes, Notice.layout, sumBytes]
  | sweepDone unit reason cursor report =>
    simp [Notice.bytes, Notice.layout, countByte, natBytes_one, SweepReport.bytes_eq_laidOut]
  | closeDropped day cause => simp [Notice.bytes, Notice.layout, dayBytes, natBytes_one]
  | portState port before after count cause => simp [Notice.bytes, Notice.layout, countByte, natBytes_one]

theorem trialCardBytes_eq_laidOut (c : Card) : trialCardBytes c = laidOut (trialCardLayout c) := by
  cases h : c.last <;>
    simp [trialCardBytes, trialCardLayout, h, trialActivityBytes, amountBytes, countByte, dayBytes, pairBytes, timeBytes,
      natBytes_one, BitVec.ofNat_add]

theorem sweepsBytes_eq_laidOut (units : List (Option SweepKind)) :
    units.flatMap sweepBytes = laidOut (units.flatMap sweepUnitLayout) := by
  induction units with
  | nil => rfl
  | cons kind rest ih =>
    rw [List.flatMap_cons, List.flatMap_cons, laidOut_append, ih]
    cases kind <;> simp [sweepBytes, sweepUnitLayout, natBytes_one]

theorem laidOut_map {α : Type} (f : α → Nat × Nat) (l : List α) :
    laidOut (l.map f) = l.flatMap fun x => natBytes (f x).1 (f x).2 := by
  induction l with
  | nil => rfl
  | cons x rest ih => rw [List.map_cons, laidOut_cons, ih, List.flatMap_cons]

theorem tagsBytes_eq_laidOut (tags : List HoldTag) :
    tags.flatMap pairBytes = laidOut (tags.map fun t => (2, t.toNat)) :=
  (laidOut_map (fun t : HoldTag => (2, t.toNat)) tags).symm

theorem holdTag_toNat (index : Nat) (g : BitVec 4) : (holdTag index g).toNat = 4096 * g.toNat + index % 4096 := by
  rw [holdTag, BitVec.toNat_append, Nat.shiftLeft_eq, Nat.mul_comm, ← Nat.two_pow_add_eq_or_of_lt (BitVec.isLt _),
    BitVec.toNat_ofNat]

theorem trialInUseBytes_eq_laidOut (cards : Vector Card 4) :
    trialInUseBytes cards = laidOut ((trialInUseBytes cards).map fun b => (1, b.toNat)) := by
  rw [laidOut_map]
  simp [natBytes_one]

theorem SeriesEntry.bytes_eq_laidOut (e : SeriesEntry) : e.bytes = laidOut
    [(1, e.fields.enabled.toNat), (4, e.fields.matchBits.toNat), (4, e.fields.mask.toNat), (3, e.fields.base),
      (3, e.fields.count), (3, e.fields.ceiling), (2, e.fields.shortLifetime), (2, e.fields.longLifetime),
      (1, e.fields.useLimit), (1, e.fields.partialAllowed.toNat), (1, e.fields.renewLimit), (2, e.openHolds)] := by
  simp [SeriesEntry.bytes, slotBytes, amountBytes, countByte, natBytes_one, boolByte_eq]

theorem entryByte_eq (entry : Option EntryId) : entryByte entry = natBytes 1 ((entry.map Fin.val).getD 0xFF) := by
  cases entry <;> simp [entryByte, countByte, natBytes_one]

/-- The field bytes of every frame of an answer are its fields laid out (R177, R179, 11.4). -/
theorem Answer.parts_eq_laidOut (a : Answer) : a.parts = a.layout.2.map laidOut := by
  cases a
  case accounts lifetime current next day close records =>
    cases close <;>
      simp [Answer.parts, Answer.layout, Figures.bytes_eq_laidOut, CloseState.owner?, CloseState.deadlineBytes, closeBytes,
        partByte, natBytes_one, dayBytes, countByte, timeBytes]
  case status freeHolds sweeps close day time =>
    cases close <;>
      simp [Answer.parts, Answer.layout, sweepsBytes_eq_laidOut, closeBytes, dayBytes, timeBytes, countByte, natBytes_one]
  case cardRecord slot c available todaysUses tags =>
    cases h : c.last
    · simp [Answer.parts, Answer.layout, h, activityBytes, tagsBytes_eq_laidOut, slotBytes, amountBytes, dayBytes, countByte,
        natBytes_one]
      rfl
    · simp [Answer.parts, Answer.layout, h, activityBytes, tagsBytes_eq_laidOut, slotBytes, amountBytes, dayBytes, countByte,
        pairBytes, timeBytes, natBytes_one]
  case trialCards cards => simp [Answer.parts, Answer.layout, trialParts, trialCardBytes_eq_laidOut, partByte, natBytes_one]
  case trialInUse cards => simp [Answer.parts, Answer.layout, ← trialInUseBytes_eq_laidOut]
  case identity => simp [Answer.parts, Answer.layout, Config.slots, Config.holdRecords, natBytes_one]
  case portRecord report => simp [Answer.parts, Answer.layout, PortReport.bytes, countByte, natBytes_one, boolByte_eq]
  case holdRecord index hold entry =>
    cases h : hold.card <;>
      simp [Answer.parts, Answer.layout, h, CardRef.bytes, holdTag_toNat, entryByte_eq, pairBytes, amountBytes, slotBytes,
        timeBytes, countByte, natBytes_one, boolByte_eq]
  case notice n overrun left =>
    simp [Answer.parts, Answer.layout, Notice.bytes_eq_laidOut, Notice.kindByte_eq_layout, countByte, natBytes_one,
      boolByte_eq]
  case seriesRecord entry record =>
    simp [Answer.parts, Answer.layout, SeriesEntry.bytes_eq_laidOut, countByte, natBytes_one]
  case closeReady | dayRecord =>
    simp [Answer.parts, Answer.layout, Figures.bytes_eq_laidOut, dayBytes, timeBytes, countByte, natBytes_one]
  all_goals
    simp [Answer.parts, Answer.layout, slotBytes, amountBytes, timeBytes, dayBytes, countByte, pairBytes, markByte_eq,
      natBytes_one]

theorem Answer.outcome_eq_layout (a : Answer) : a.outcome.code = a.layout.1 := by
  cases a <;> rfl

/-- The frames of an answer, its fields laid out (R156, R177). -/
theorem TaggedAnswer.bytes_eq_laidOut (a : TaggedAnswer) :
    a.bytes = a.answer.layout.2.flatMap fun fields => frame (a.tag :: a.answer.layout.1 :: laidOut fields) := by
  rw [TaggedAnswer.bytes, TaggedAnswer.bodies, Answer.parts_eq_laidOut, Answer.outcome_eq_layout, List.map_map,
    List.flatMap_map]
  rfl

/-! ### Lengths of bodies -/

theorem sum_widths_eq {α : Type} (l : List α) (f : α → Nat × Nat) (n : Nat) (h : ∀ x, (f x).1 = n) :
    ((l.map f).map Prod.fst).sum = n * l.length := by
  simp [List.map_map, Function.comp_def, h, Nat.mul_comm]

theorem Figures.layout_widths (f : Figures) : (f.layout.map Prod.fst).sum = 48 := rfl

theorem trialCardLayout_widths (c : Card) : ((trialCardLayout c).map Prod.fst).sum = 17 := by
  cases h : c.last <;> simp [trialCardLayout, h]

theorem Notice.layout_widths (n : Notice) : (n.layout.2.map Prod.fst).sum = match n with
    | .holdExpired _ _ _ _ => 14
    | .holdsPurged _ _ => 8
    | .sweepDone _ _ _ (.search _ _ _) => 6 + 7
    | .sweepDone _ _ _ (.tally _ _ _ _ _) => 6 + 35
    | .sweepDone _ _ _ (.purge _ _) => 6 + 8
    | .sweepDone _ _ _ (.issueRun _ _ _) => 6 + 12
    | .closeDropped _ _ => 3
    | .portState _ _ _ _ _ => 5 := by
  cases n with
  | holdExpired tag card amount till => cases card <;> rfl
  | sweepDone unit reason cursor report => cases report <;> rfl
  | holdsPurged | closeDropped | portState => rfl

theorem Notice.layout_widths_le (n : Notice) : (n.layout.2.map Prod.fst).sum ≤ 41 := by
  rw [Notice.layout_widths]
  split <;> decide

theorem cardRecord_widths (slot : Nat) (c : Card) (available todaysUses : Nat) (tags : List HoldTag) :
    ∀ fields ∈ (Answer.cardRecord slot c available todaysUses tags).layout.2,
      (laidOut fields).length + 2 = 29 + 2 * tags.length := by
  intro fields h
  have hwidth := sum_widths_eq tags (fun t => (2, t.toNat)) 2 fun _ => rfl
  cases hlast : c.last <;>
    · simp only [Answer.layout, hlast, List.mem_singleton] at h
      subst h
      simp only [laidOut_length, List.map_append, List.map_cons, List.map_nil, List.sum_append, List.sum_cons,
        List.sum_nil, hwidth]
      omega

theorem layout_one_frame (a : Answer) (h : a.layout.2.length ≠ 1) :
    (∃ lifetime current next day close records, a = .accounts lifetime current next day close records) ∨
      ∃ cards, a = .trialCards cards := by
  cases a
  case accounts => exact .inl ⟨_, _, _, _, _, _, rfl⟩
  case trialCards => exact .inr ⟨_, rfl⟩
  all_goals exact absurd rfl h

/-- No body of an answer is longer than a body may be (11.1, 11.4). -/
theorem layout_widths_le (a : Answer)
    (htags : ∀ slot c available todaysUses tags, a = .cardRecord slot c available todaysUses tags → tags.length ≤ 8)
    (hunits : ∀ free sweeps close day time, a = .status free sweeps close day time → sweeps.length = 2) :
    ∀ fields ∈ a.layout.2, (laidOut fields).length + 2 ≤ 60 := by
  intro fields h
  cases a
  case cardRecord slot c available todaysUses tags =>
    rw [cardRecord_widths slot c available todaysUses tags fields h]
    have := htags _ _ _ _ _ rfl
    omega
  case status free sweeps close day time =>
    have hlen := hunits _ _ _ _ _ rfl
    obtain ⟨a, b, rfl⟩ := List.length_eq_two.mp hlen
    simp only [Answer.layout, List.mem_singleton] at h
    subst h
    rw [laidOut_length]
    cases a <;> cases b <;> cases close <;> simp [sweepUnitLayout]
  case notice n overrun left =>
    have := n.layout_widths_le
    simp only [Answer.layout, List.mem_singleton] at h
    subst h
    simp only [laidOut_length, List.map_cons, List.sum_cons]
    omega
  case trialInUse cards =>
    have hwidth := sum_widths_eq (trialInUseBytes cards) (fun b => (1, b.toNat)) 1 fun _ => rfl
    have hlen : (trialInUseBytes cards).length ≤ 58 := List.length_take_le _ _
    simp only [Answer.layout, List.mem_singleton] at h
    subst h
    rw [laidOut_length, hwidth]
    omega
  case trialCards cards =>
    simp only [Answer.layout, List.mem_cons, List.not_mem_nil, or_false] at h
    rcases h with rfl | rfl <;> simp [laidOut_length, trialCardLayout_widths]
  case accounts lifetime current next day close records =>
    simp only [Answer.layout, List.mem_cons, List.not_mem_nil, or_false] at h
    rcases h with rfl | rfl | rfl
    · cases close <;> simp [laidOut_length, Figures.layout_widths]
    · simp [laidOut_length, Figures.layout_widths]
    · simp [laidOut_length, Figures.layout_widths]
  case holdRecord index hold entry =>
    simp only [Answer.layout, List.mem_singleton] at h
    subst h
    rw [laidOut_length]
    cases hold.card <;> simp
  all_goals
    simp only [Answer.layout, List.mem_singleton] at h
    subst h
    simp [Figures.layout]

/-- The body lengths of 11.4, tag and outcome included, by the outcome that carries them. -/
def bodyLengths : List (Byte × Nat) :=
  [((0x07 : Byte), 12), (0x01, 15), (0x4F, 6), (0x02, 6), (0x03, 8), (0x55, 8), (0x04, 8), (0x05, 9), (0x06, 9), (0x56, 9)]

theorem layout_length_of_outcome (a : Answer) (n : Nat) (hplain : ∀ o, a ≠ .plain o) (h : (a.layout.1, n) ∈ bodyLengths) :
    ∀ fields ∈ a.layout.2, (laidOut fields).length + 2 = n := by
  intro fields hfields
  cases a
  case plain o => exact absurd rfl (hplain o)
  case probed | held | noFunds | renewed | captured | short | released | redeemed | loaded | atCeiling =>
    simp only [Answer.layout, List.mem_singleton] at hfields
    subst hfields
    simp [bodyLengths, Answer.layout] at h
    simp [h]
  all_goals simp [bodyLengths, Answer.layout] at h

theorem exec_answerTransmitStart {s : State} {p : PortId} {a : TaggedAnswer} {rest : List TaggedAnswer}
    (hidle : (s.port p).sending = none) (h : (s.port p).answers = a :: rest) :
    exec (.answerTransmitStart p) s =
      .next (s.modifyPort p fun port => { port with sending := some a.bytes, answers := rest }) := by
  simp only [exec, execAnswerTransmitStart, hidle, h]

theorem exec_answerTransmitStart_none {s : State} {p : PortId}
    (h : (s.port p).sending ≠ none ∨ (s.port p).answers = []) : exec (.answerTransmitStart p) s = .next s := by
  simp only [exec, execAnswerTransmitStart]
  split
  case h_1 a rest hidle hsome => simp [hidle, hsome] at h
  case h_2 => rfl

/-- Settles O24: the transmitter's two steps over the layouts, the lengths by the widths, and the code tables. -/
theorem transmitterSendsTheOldestAnswer : Obligations.TransmitterSendsTheOldestAnswer := by
  refine ⟨fun s p => ⟨fun a rest hidle h => ?_, exec_answerTransmitStart_none, rfl⟩, layout_one_frame,
    layout_length_of_outcome, cardRecord_widths, fun n => (laidOut_length _).trans n.layout_widths, layout_widths_le, ?_⟩
  · rw [exec_answerTransmitStart hidle h, TaggedAnswer.bytes_eq_laidOut]
    rfl
  · decide

end Sys2Proof.Machine
end

section
/-! PROOFS. The bytes of a request: what each field reader takes, and every request read back from its own bytes. -/

namespace Sys2Proof.Machine

/-! ### What a field reader takes -/

theorem fieldBool_eq_some (f : List Byte) (o : Nat) (b : Bool) : fieldBool f o = some b ↔ fieldNat f o 1 = b.toNat := by
  unfold fieldBool
  split
  case h_1 h => cases b <;> simp [h]
  case h_2 h => cases b <;> simp [h]
  case h_3 h0 h1 =>
    simp only [reduceCtorEq, false_iff]
    cases b
    · exact h0
    · exact h1

theorem fieldRole_eq_some (f : List Byte) (o : Nat) (v : Role) : fieldRole f o = some v ↔ fieldNat f o 1 = v.code.toNat := by
  unfold fieldRole
  split
  case h_1 h => cases v <;> simp [h, Role.code]
  case h_2 h => cases v <;> simp [h, Role.code]
  case h_3 h0 h1 =>
    simp only [reduceCtorEq, false_iff]
    cases v
    · exact h0
    · exact h1

theorem fieldMode_eq_some (f : List Byte) (o : Nat) (v : Mode) : fieldMode f o = some v ↔ fieldNat f o 1 = v.code.toNat := by
  unfold fieldMode
  split
  case h_1 h => cases v <;> simp [h, Mode.code]
  case h_2 h => cases v <;> simp [h, Mode.code]
  case h_3 h0 h1 =>
    simp only [reduceCtorEq, false_iff]
    cases v
    · exact h0
    · exact h1

theorem fieldRecovery_eq_some (f : List Byte) (o : Nat) (v : Recovery) :
    fieldRecovery f o = some v ↔ fieldNat f o 1 = v.code.toNat := by
  unfold fieldRecovery
  split
  case h_1 h => cases v <;> simp [h, Recovery.code]
  case h_2 h => cases v <;> simp [h, Recovery.code]
  case h_3 h0 h1 =>
    simp only [reduceCtorEq, false_iff]
    cases v
    · exact h0
    · exact h1

theorem fieldBase_eq_some (f : List Byte) (o : Nat) (v : TimeBase) :
    fieldBase f o = some v ↔ fieldNat f o 1 = v.code.toNat := by
  unfold fieldBase
  split
  case h_1 h => cases v <;> simp [h, TimeBase.code]
  case h_2 h => cases v <;> simp [h, TimeBase.code]
  case h_3 h0 h1 =>
    simp only [reduceCtorEq, false_iff]
    cases v
    · exact h0
    · exact h1

theorem fieldPort_eq_some (f : List Byte) (o : Nat) (p : PortId) : fieldPort f o = some p ↔ fieldNat f o 1 = p.val := by
  unfold fieldPort
  split
  case isTrue h => simp [Fin.ext_iff]
  case isFalse h =>
    simp only [reduceCtorEq, false_iff]
    omega

theorem fieldUnit_eq_some (f : List Byte) (o : Nat) (u : UnitId) : fieldUnit f o = some u ↔ fieldNat f o 1 = u.val := by
  unfold fieldUnit
  split
  case isTrue h => simp [Fin.ext_iff]
  case isFalse h =>
    simp only [reduceCtorEq, false_iff]
    omega

theorem fieldEntry_eq_some (f : List Byte) (o : Nat) (e : EntryId) : fieldEntry f o = some e ↔ fieldNat f o 1 = e.val := by
  unfold fieldEntry
  split
  case isTrue h => simp [Fin.ext_iff]
  case isFalse h =>
    simp only [reduceCtorEq, false_iff]
    omega

/-- A number read only when a check of it holds. -/
theorem if_some_eq_some {α : Type} {c : α → Prop} [DecidablePred c] (n v : α) :
    (if c n then some n else none) = some v ↔ n = v ∧ c v := by
  by_cases h : c n
  · rw [if_pos h, Option.some.injEq]
    exact ⟨fun hv => ⟨hv, hv ▸ h⟩, And.left⟩
  · rw [if_neg h]
    simp only [reduceCtorEq, false_iff]
    rintro ⟨rfl, hv⟩
    exact h hv

theorem fieldAmount_eq_some (f : List Byte) (o low v : Nat) :
    fieldAmount f o low = some v ↔ fieldNat f o 3 = v ∧ low ≤ v ∧ v ≤ 9999999 :=
  if_some_eq_some (c := fun v => low ≤ v ∧ v ≤ Config.maxAmount) _ _

theorem fieldIn_eq_some (f : List Byte) (o n low high v : Nat) :
    fieldIn f o n low high = some v ↔ fieldNat f o n = v ∧ low ≤ v ∧ v ≤ high :=
  if_some_eq_some (c := fun v => low ≤ v ∧ v ≤ high) _ _

theorem fieldTrialValue_eq_some (f : List Byte) (o v : Nat) :
    fieldTrialValue f o = some v ↔ fieldNat f o 3 = v ∧ v ≤ 99999 :=
  if_some_eq_some (c := fun v => v ≤ Config.trialCeiling) _ _

theorem fieldRange_eq_some (f : List Byte) (range : Nat × Nat) : fieldRange f = some range ↔
    (fieldNat f 0 3, fieldNat f 3 3) = range ∧ range.1 ≤ range.2 ∧ range.2 < 131072 :=
  if_some_eq_some (c := fun range : Nat × Nat => range.1 ≤ range.2 ∧ range.2 < Config.slots)
    (fieldNat f 0 3, fieldNat f 3 3) range

theorem fieldPattern_eq_some (f : List Byte) (o : Nat) (v : BitVec 28) :
    fieldPattern f o = some v ↔ fieldNat f o 4 = v.toNat := by
  unfold fieldPattern
  split
  case isTrue h => rw [Option.some.injEq, ← BitVec.toNat_inj, BitVec.toNat_ofNat, Nat.mod_eq_of_lt h]
  case isFalse h =>
    simp only [reduceCtorEq, false_iff]
    omega

theorem fieldCode_eq (f : List Byte) (o : Nat) (c : CardCode) : fieldCode f o = c ↔ fieldNat f o 6 = c.toNat := by
  have := fieldNat_lt f o 6
  rw [fieldCode, ← BitVec.toNat_inj, BitVec.toNat_ofNat, Nat.mod_eq_of_lt (by omega)]

theorem fieldPair_eq (f : List Byte) (o : Nat) (c : BitVec 16) : fieldPair f o = c ↔ fieldNat f o 2 = c.toNat := by
  have := fieldNat_lt f o 2
  rw [fieldPair, ← BitVec.toNat_inj, BitVec.toNat_ofNat, Nat.mod_eq_of_lt (by omega)]

/-- A PURGE's till selector: ANY, or a till id (R116). -/
theorem fieldSelector_eq_some (f : List Byte) (till : Option TillId) : fieldSelector f = some till ↔
    (fieldNat f 1 1 = 0 ∧ till = none) ∨ (fieldNat f 1 1 = 1 ∧ ∃ t : TillId, till = some t ∧ fieldNat f 2 2 = t.toNat) := by
  unfold fieldSelector
  split
  case h_1 h => simp [h, eq_comm]
  case h_2 h =>
    constructor
    · intro ht
      cases ht
      exact .inr ⟨h, _, rfl, (fieldPair_eq f 2 _).mp rfl⟩
    · rintro (⟨h', -⟩ | ⟨-, t, rfl, ht⟩)
      · rw [h] at h'
        cases h'
      · rw [(fieldPair_eq f 2 t).mpr ht]
  case h_3 h0 h1 =>
    simp only [reduceCtorEq, false_iff]
    rintro (⟨h, -⟩ | ⟨h, -⟩)
    · exact h0 h
    · exact h1 h

/-- The eleven written fields of a series entry (R8). -/
theorem fieldSeries_eq_some (f : List Byte) (g : SeriesFields) : fieldSeries f = some g ↔
    fieldNat f 1 1 = g.enabled.toNat ∧ fieldNat f 2 4 = g.matchBits.toNat ∧ fieldNat f 6 4 = g.mask.toNat ∧
      fieldNat f 24 1 = g.partialAllowed.toNat ∧ fieldNat f 10 3 = g.base ∧ fieldNat f 13 3 = g.count ∧
      fieldNat f 16 3 = g.ceiling ∧ fieldNat f 19 2 = g.shortLifetime ∧ fieldNat f 21 2 = g.longLifetime ∧
      fieldNat f 23 1 = g.useLimit ∧ fieldNat f 25 1 = g.renewLimit := by
  obtain ⟨enabled, matchBits, mask, base, count, ceiling, short, long, useLimit, partialAllowed, renewLimit⟩ := g
  simp only [fieldSeries, Option.bind_eq_some_iff, Option.map_eq_some_iff, fieldBool_eq_some, fieldPattern_eq_some,
    SeriesFields.mk.injEq]
  constructor
  · rintro ⟨a, ha, b, hb, c, hc, d, hd, rfl, rfl, rfl, h1, h2, h3, h4, h5, h6, rfl, h7⟩
    exact ⟨ha, hb, hc, hd, h1, h2, h3, h4, h5, h6, h7⟩
  · rintro ⟨ha, hb, hc, hd, h1, h2, h3, h4, h5, h6, h7⟩
    exact ⟨_, ha, _, hb, _, hc, _, hd, rfl, rfl, rfl, h1, h2, h3, h4, h5, h6, rfl, h7⟩

/-- An EDIT-CARD with one or both bits of its mask (R25). -/
theorem fieldEdit_eq_some (f : List Byte) (r : Request) : fieldEdit f = some r ↔
    ∃ address, fieldAddress f = some address ∧
      (fieldNat f 7 1 = 1 ∨ fieldNat f 7 1 = 2 ∨ fieldNat f 7 1 = 3) ∧ fieldNat f 11 2 ≤ 255 ∧
      r = .editCard address (decide (fieldNat f 7 1 ≠ 2)) (decide (fieldNat f 7 1 ≠ 1)) (fieldNat f 8 3)
        (fieldNat f 11 2) := by
  simp only [fieldEdit, Option.bind_eq_some_iff]
  refine exists_congr fun address => and_congr_right fun _ => ?_
  split
  case isTrue h =>
    rw [Option.some.injEq]
    exact ⟨fun hr => ⟨h.1, h.2, hr.symm⟩, fun ⟨_, _, hr⟩ => hr.symm⟩
  case isFalse h =>
    simp only [reduceCtorEq, false_iff]
    rintro ⟨hmask, huses, -⟩
    exact h ⟨hmask, huses⟩

/-! ### The bytes of a request -/

theorem boolByte_toNat (b : Bool) : (boolByte b).toNat = b.toNat := by
  cases b <;> rfl

theorem Criterion.bytes_length (c : Criterion) : c.bytes.length = 6 := by
  cases c <;> simp [Criterion.bytes]

theorem Request.fieldBytes_length (r : Request) : r.fieldBytes.length + 2 = r.kind.bodyLength := by
  cases r
  case purge owner till => cases till <;> simp [Request.fieldBytes, Request.kind, Kind.bodyLength]
  case search => simp [Request.fieldBytes, Request.kind, Kind.bodyLength, Criterion.bytes_length]
  case issue | block | unblock | retire | readCard | editCard =>
    simp [Request.fieldBytes, Request.kind, Kind.bodyLength, address_length]
  all_goals simp [Request.fieldBytes, Request.kind, Kind.bodyLength]

theorem kindOfByte_of_row : ∀ row ∈ requestTable, kindOfByte (BitVec.ofNat 8 row.1) = some row.2.1 := by
  decide

theorem bodyLength_of_row : ∀ row ∈ requestTable, row.2.1.bodyLength = row.2.2 := by
  decide

theorem kindOfByte_iff (b : Byte) (k : Kind) : kindOfByte b = some k ↔ ∃ n, (b.toNat, k, n) ∈ requestTable := by
  constructor
  · intro h
    refine ⟨k.bodyLength, ?_⟩
    unfold kindOfByte at h
    split at h
    case h_37 => cases h
    all_goals
      rename_i hb
      cases h
      rw [hb]
      decide
  · rintro ⟨n, h⟩
    have hrow := kindOfByte_of_row _ h
    rwa [BitVec.ofNat_toNat, BitVec.setWidth_eq] at hrow

theorem slotRange_iff (start stop : Nat) : slotRange start stop = true ↔ start ≤ stop ∧ stop < 131072 := by
  simp only [slotRange, Bool.and_eq_true, decide_eq_true_eq]
  rfl

theorem drop_append_of_length {a : List Byte} {k : Nat} (h : a.length = k) (off : Nat) (rest : List Byte) (hoff : k ≤ off) :
    (a ++ rest).drop off = rest.drop (off - k) := by
  rw [List.drop_append, List.drop_eq_nil_of_le (by omega), List.nil_append, h]

theorem fieldNat_criterion (c : Criterion) (off n : Nat) (rest : List Byte) (h : 6 ≤ off) :
    fieldNat (c.bytes ++ rest) off n = fieldNat rest (off - 6) n := by
  rw [fieldNat_append_left _ _ _ _ (by rw [Criterion.bytes_length]; exact h), Criterion.bytes_length]

/-- The mask byte of an EDIT-CARD says which fields it edits (R25). -/
theorem editMask (editValue editUses : Bool) (h : editValue = true ∨ editUses = true) :
    let mask := (boolByte editValue + 2 * boolByte editUses).toNat
    (mask = 1 ∨ mask = 2 ∨ mask = 3) ∧ decide (mask ≠ 2) = editValue ∧ decide (mask ≠ 1) = editUses := by
  cases editValue <;> cases editUses <;> simp_all [boolByte]

theorem trialValues_iff (values : Vector Nat 4) : (values.toList.all fun v => decide (v ≤ Config.trialCeiling)) = true ↔
    values[0] ≤ 99999 ∧ values[1] ≤ 99999 ∧ values[2] ≤ 99999 ∧ values[3] ≤ 99999 := by
  have hlist : values.toList = [values[0], values[1], values[2], values[3]] := by
    apply List.ext_getElem <;> simp
    intro i hi
    interval_cases i <;> simp
  rw [hlist]
  simp only [List.all_cons, List.all_nil, Bool.and_eq_true, decide_eq_true_eq, and_true]
  rfl

/-- A request in range is read back from its own field bytes: each field is read where it was laid. -/
theorem requestOf_fieldBytes (r : Request) (h : r.inRange = true) : requestOf r.kind r.fieldBytes = some r := by
  cases r
  all_goals
    simp only [Request.inRange, Bool.and_eq_true, Bool.or_eq_true, decide_eq_true_eq, slotRange_iff, trialValues_iff] at h
    simp only [Request.kind, requestOf, Request.fieldBytes, List.append_assoc, Option.bind_eq_some_iff,
      Option.map_eq_some_iff, Option.some.injEq, fieldAmount_eq_some, fieldBool_eq_some, fieldPort_eq_some,
      fieldUnit_eq_some, fieldEntry_eq_some, fieldRole_eq_some, fieldMode_eq_some, fieldRecovery_eq_some,
      fieldBase_eq_some, fieldRange_eq_some, fieldIn_eq_some, fieldTrialValue_eq_some, fieldSelector_eq_some,
      fieldSeries_eq_some, fieldEdit_eq_some]
  case search start stop critA critB limit skip =>
    obtain ⟨⟨⟨⟨hstart, hstop⟩, hA⟩, hB⟩, hlimit⟩ := h
    refine ⟨(start, stop), ⟨?_, hstart, hstop⟩, critA, ?_, critB, ?_, skip, ?_, ?_⟩
    · rw [fieldNat_here _ _ _ (by omega), fieldNat_skip _ _ _ _ _ (by omega), fieldNat_here _ _ _ (by omega)]
    · exact fieldCriterion_of critA _ hA (by
        rw [drop_append_of_length (natBytes_length 3 _) _ _ (by omega),
          drop_append_of_length (natBytes_length 3 _) _ _ (by omega)]
        rfl)
    · exact fieldCriterion_of critB _ hB (by
        rw [drop_append_of_length (natBytes_length 3 _) _ _ (by omega),
          drop_append_of_length (natBytes_length 3 _) _ _ (by omega),
          drop_append_of_length critA.bytes_length _ _ (by omega)]
        rfl)
    · simp (disch := omega) [fieldNat_skip, fieldNat_criterion, fieldNat_head, boolByte_toNat]
    · simp (disch := omega) [fieldNat_skip, fieldNat_criterion, fieldNat_here]
  case issue address value =>
    obtain ⟨haddress, hvalue⟩ := h
    simp only [Config.maxAmount] at hvalue
    simp (disch := omega) [fieldAddress_of _ _ haddress, fieldNat_addr, fieldNat_last, hvalue]
  case block | unblock | retire | readCard => simp [fieldAddress_of' _ h]
  case editCard address editValue editUses newValue newUses =>
    obtain ⟨⟨⟨haddress, hedit⟩, hvalue⟩, huses⟩ := h
    obtain ⟨hmask, hv, hu⟩ := editMask editValue editUses hedit
    let bytes := address.bytes ++ ([boolByte editValue + 2 * boolByte editUses] ++
      (natBytes 3 newValue ++ natBytes 2 newUses))
    have h7 : fieldNat bytes 7 1 = (boolByte editValue + 2 * boolByte editUses).toNat := by
      rw [fieldNat_addr _ _ _ _ (by omega)]
      exact fieldNat_head _ _
    have h8 : fieldNat bytes 8 3 = newValue := by
      simp (disch := omega) [bytes, fieldNat_addr, fieldNat_cons, fieldNat_here]
    have h11 : fieldNat bytes 11 2 = newUses := by
      simp (disch := omega) [bytes, fieldNat_addr, fieldNat_cons, fieldNat_skip, fieldNat_last]
    refine ⟨address, fieldAddress_of _ _ haddress, ?_⟩
    rw [h7, h8, h11, hv, hu]
    exact ⟨hmask, huses, rfl⟩
  case purge owner till =>
    refine ⟨owner, ?_, till, ?_, rfl⟩
    · rw [fieldNat_here _ _ _ (by omega)]
    · cases till with
      | none => exact .inl ⟨by simp [fieldNat_skip, fieldNat_head], rfl⟩
      | some t =>
        exact .inr ⟨by simp [fieldNat_skip, fieldNat_head], t, rfl,
          by simp (disch := omega) [fieldNat_skip, fieldNat_cons, fieldNat_last]⟩
  case readHold index =>
    simp only [Config.holdRecords] at h
    simp (disch := omega) [fieldNat_last]
    omega
  case tally => simp (disch := omega) [fieldNat_skip, fieldNat_here, fieldNat_last, h]
  case issueRun =>
    simp only [Config.maxAmount] at h
    simp (disch := omega) [fieldNat_skip, fieldNat_here, fieldNat_last, h]
  case trialSet write values =>
    obtain ⟨h0, h1, h2, h3⟩ := h
    refine ⟨write, ?_, values[0], ⟨?_, h0⟩, values[1], ⟨?_, h1⟩, values[2], ⟨?_, h2⟩, values[3], ⟨?_, h3⟩, ?_⟩
    · rw [fieldNat_head, boolByte_toNat]
    case refine_6 =>
      congr 1
      ext i hi
      interval_cases i <;> rfl
    all_goals simp (disch := omega) [fieldNat_cons, fieldNat_skip, fieldNat_here, fieldNat_last]
  case reserve | redeem | load | capture =>
    simp only [Config.maxAmount] at h
    simp (disch := omega) [fieldCode_eq, fieldPair_eq, fieldNat_skip, fieldNat_here, fieldNat_last, fieldNat_cons,
      fieldNat_head, boolByte_toNat, h]
  case setTime =>
    simp only [Config.maxTime] at h
    simp (disch := omega) [fieldNat_last]
  case dayReport =>
    simp only [Config.maxDay] at h
    simp (disch := omega) [fieldNat_last, h]
  case setSeries entry fields =>
    obtain ⟨⟨⟨⟨⟨⟨hbase, hcount⟩, hceiling⟩, hshort⟩, hlong⟩, huse⟩, hrenew⟩ := h
    have hmatch := fields.matchBits.isLt
    have hmask := fields.mask.isLt
    refine ⟨entry, ?_, fields, ?_, rfl⟩
    · simp (disch := omega) [fieldNat_here]
    · simp (disch := omega) [fieldNat_skip, fieldNat_cons, fieldNat_here, fieldNat_last, fieldNat_head, boolByte_toNat]
  case setPort target role mode =>
    refine ⟨target, ?_, role, ?_, mode, ?_, rfl⟩ <;>
      simp (disch := omega) [fieldNat_skip, fieldNat_cons, fieldNat_here, fieldNat_head]
  case setTiming target timeout recovery window base divisor =>
    obtain ⟨⟨⟨htimeout, hlow⟩, hhigh⟩, hdivisor⟩ := h
    simp (disch := omega) [fieldNat_skip, fieldNat_cons, fieldNat_here, fieldNat_head, fieldNat_last, hlow, hhigh]
  case probe | renew | release =>
    simp (disch := omega) [fieldCode_eq, fieldPair_eq, fieldNat_last]
  case portStatus | resetPort | restorePort | cancelSweep | readSeries =>
    simp (disch := omega) [fieldNat_last]

/-! ### What a read request is -/

/-- A request read from field bytes is of the kind of the frame, and its fields lie in their ranges. -/
theorem requestOf_sound {k : Kind} {f : List Byte} {r : Request} (h : requestOf k f = some r) :
    r.kind = k ∧ r.inRange = true := by
  cases k
  all_goals
    simp only [requestOf, Option.bind_eq_some_iff, Option.map_eq_some_iff, Option.some.injEq, fieldAmount_eq_some,
      fieldRange_eq_some, fieldIn_eq_some, fieldTrialValue_eq_some, fieldEdit_eq_some, reduceCtorEq] at h
  case search =>
    obtain ⟨_, ⟨-, hrange⟩, critA, hA, critB, hB, skip, -, rfl⟩ := h
    have hlimit := fieldNat_lt f 18 2
    refine ⟨rfl, ?_⟩
    simp only [Request.inRange, Bool.and_eq_true, decide_eq_true_eq, slotRange_iff]
    exact ⟨⟨⟨hrange, fieldCriterion_inRange hA⟩, fieldCriterion_inRange hB⟩, by omega⟩
  case reserve =>
    obtain ⟨amount, ⟨-, hrange⟩, _, -, _, -, rfl⟩ := h
    simp only [Request.kind, Request.inRange, Bool.and_eq_true, decide_eq_true_eq, true_and]
    exact hrange
  case redeem =>
    obtain ⟨amount, ⟨-, hrange⟩, _, -, rfl⟩ := h
    simp only [Request.kind, Request.inRange, Bool.and_eq_true, decide_eq_true_eq, true_and]
    exact hrange
  case load =>
    obtain ⟨amount, ⟨-, hrange⟩, rfl⟩ := h
    simp only [Request.kind, Request.inRange, Bool.and_eq_true, decide_eq_true_eq, true_and]
    exact hrange
  case capture =>
    obtain ⟨final, ⟨-, -, hfinal⟩, rfl⟩ := h
    exact ⟨rfl, decide_eq_true hfinal⟩
  case setSeries =>
    obtain ⟨entry, -, fields, hfields, rfl⟩ := h
    obtain ⟨-, -, -, -, hbase, hcount, hceiling, hshort, hlong, huse, hrenew⟩ := (fieldSeries_eq_some f fields).mp hfields
    have hwidth := fieldNat_lt f
    simp only [Request.kind, Request.inRange, Bool.and_eq_true, decide_eq_true_eq, true_and]
    rw [← hbase, ← hcount, ← hceiling, ← hshort, ← hlong, ← huse, ← hrenew]
    exact ⟨⟨⟨⟨⟨⟨hwidth 10 3, hwidth 13 3⟩, hwidth 16 3⟩, hwidth 19 2⟩, hwidth 21 2⟩, hwidth 23 1⟩, hwidth 25 1⟩
  case issue =>
    obtain ⟨address, haddress, value, ⟨-, -, hvalue⟩, rfl⟩ := h
    simp only [Request.kind, Request.inRange, fieldAddress_inRange haddress, Bool.and_eq_true, decide_eq_true_eq, true_and]
    exact hvalue
  case block | unblock | retire | readCard =>
    obtain ⟨address, haddress, rfl⟩ := h
    exact ⟨rfl, fieldAddress_inRange haddress⟩
  case editCard =>
    obtain ⟨address, haddress, hmask, huses, rfl⟩ := h
    have hvalue : fieldNat f 8 3 < 16777216 := fieldNat_lt f 8 3
    simp [Request.kind, Request.inRange, fieldAddress_inRange haddress, hvalue, huses]
    omega
  case readHold =>
    obtain ⟨index, ⟨-, -, hindex⟩, rfl⟩ := h
    exact ⟨rfl, decide_eq_true (Nat.lt_succ_of_le hindex)⟩
  case setTime =>
    have htime : fieldNat f 0 4 < 4294967296 := fieldNat_lt f 0 4
    subst h
    exact ⟨rfl, decide_eq_true (Nat.le_of_lt_succ htime)⟩
  case tally =>
    obtain ⟨range, ⟨-, hrange⟩, rfl⟩ := h
    exact ⟨rfl, (slotRange_iff _ _).mpr hrange⟩
  case issueRun =>
    obtain ⟨range, ⟨-, hrange⟩, stride, ⟨-, hlow, hhigh⟩, value, ⟨-, -, hvalue⟩, rfl⟩ := h
    simp only [Request.kind, Request.inRange, Bool.and_eq_true, decide_eq_true_eq, slotRange_iff, true_and]
    exact ⟨⟨⟨hrange, hlow⟩, hhigh⟩, hvalue⟩
  case dayReport =>
    obtain ⟨day, ⟨-, hday⟩, rfl⟩ := h
    simp only [Request.kind, Request.inRange, Bool.and_eq_true, decide_eq_true_eq, true_and]
    exact hday
  case trialSet =>
    obtain ⟨_, -, _, ⟨-, h0⟩, _, ⟨-, h1⟩, _, ⟨-, h2⟩, _, ⟨-, h3⟩, rfl⟩ := h
    exact ⟨rfl, (trialValues_iff _).mpr ⟨h0, h1, h2, h3⟩⟩
  case setTiming =>
    obtain ⟨target, -, recovery, -, window, ⟨-, hwindow⟩, base, -, rfl⟩ := h
    have htimeout : fieldNat f 1 1 < 256 := fieldNat_lt f 1 1
    have hdivisor : fieldNat f 5 3 < 16777216 := fieldNat_lt f 5 3
    simp [Request.kind, Request.inRange, htimeout, hdivisor, hwindow]
  case probe | renew | release | collect | status | ident | closeDay | confirmClose | accounts =>
    subst h
    exact ⟨rfl, rfl⟩
  case portStatus | readSeries | cancelSweep | resetPort | restorePort =>
    obtain ⟨_, -, rfl⟩ := h
    exact ⟨rfl, rfl⟩
  case purge =>
    obtain ⟨_, -, _, -, rfl⟩ := h
    exact ⟨rfl, rfl⟩
  case setPort =>
    obtain ⟨_, -, _, -, _, -, rfl⟩ := h
    exact ⟨rfl, rfl⟩

/-- Settles O51: each field is read where it was laid, and what a reader takes lies in its field's range. -/
theorem requestBytesReadBack : Obligations.RequestBytesReadBack :=
  ⟨kindOfByte_iff, bodyLength_of_row, fun r h => ⟨r.fieldBytes_length, requestOf_fieldBytes r h⟩,
    fun _ _ _ => requestOf_sound⟩

end Sys2Proof.Machine
end

section
/-! PROOFS. The moves of the part: what one step can make of a state, whatever command it runs. -/

namespace Sys2Proof.Machine

/-- RESET_N risen: the straps sampled, each receiver in HUNT (R163, R177). -/
def State.resetRelease (s : State) (rate : LineRate) : State :=
  { s with
    resetLow := false, lineRate := rate
    ports := mapVec (fun port => { port with receiver := .hunt, gap := 0 }) s.ports }

theorem State.port_resetRelease (s : State) (rate : LineRate) (p : PortId) :
    (s.resetRelease rate).port p = { s.port p with receiver := .hunt, gap := 0 } := by
  simp [State.port, State.resetRelease, mapVec_getElem]

/-- What a step makes of a state, its command taken from the queue. -/
inductive Moves (s : State) : State → Prop
  | stays : Moves s s
  | powerOn (rate : LineRate) : Moves s { State.reset with lineRate := rate, pending := s.pending }
  | resetFalls (high : s.resetLow = false) : Moves s s.resetLine
  | resetRises (rate : LineRate) (low : s.resetLow = true) : Moves s (s.resetRelease rate)
  | tick (base : s.clock.base = .tick) : Moves s s.secondEvent
  | counted (base : s.clock.base = .divided) (ahead : s.clock.divider + 1 < s.clock.divisor) :
    Moves s { s with clock := { s.clock with divider := s.clock.divider + 1 } }
  | divided (base : s.clock.base = .divided) : Moves s s.restartDivider.secondEvent
  | window : Moves s s.windowCheck
  | lapse (i : Nat) (rest : List Nat) (turn : s.nextGrant = some .expiry) (head : s.expiry = i :: rest) :
    Moves s ((s.grantTo .expiry).lapse i)
  | searched (u : UnitId) (start stop : Nat) (critA critB : Criterion) (limit : Nat) (skip : Bool)
    (turn : s.nextSweep = some u) (params : (s.sweep u).params = .search start stop critA critB limit skip) :
    Moves s ((s.grantTo (.sweep u)).searchStep u stop critA critB limit skip)
  | tallied (u : UnitId) (start stop : Nat) (turn : s.nextSweep = some u) (params : (s.sweep u).params = .tally start stop) :
    Moves s ((s.grantTo (.sweep u)).tallyStep u stop)
  | purged (u : UnitId) (owner : PortId) (till : Option TillId) (turn : s.nextSweep = some u)
    (params : (s.sweep u).params = .purge owner till) : Moves s ((s.grantTo (.sweep u)).purgeStep u owner till)
  | issued (u : UnitId) (start stop stride value : Nat) (turn : s.nextSweep = some u)
    (params : (s.sweep u).params = .issueRun start stop stride value) :
    Moves s ((s.grantTo (.sweep u)).issueRunStep u stop stride value)
  | discarded (f : InFlight) (flight : s.inFlight = some f) (discard : f.discarded = true) : Moves s { s with inFlight := none }
  | completed (f : InFlight) (flight : s.inFlight = some f) (kept : f.discarded = false) :
    Moves s (({ s with inFlight := none } : State).pushAnswer f.port f.tag f.answer)
  | byte (p : PortId) (b : Byte) : Moves s (s.receiveByte p b)
  | gap (p : PortId) (gap : Nat) : Moves s ((s.modifyPort p fun port => { port with gap := gap }).gapCheck p)
  | sending (p : PortId) (bytes : List Byte) (a : TaggedAnswer) (rest : List TaggedAnswer)
    (answers : (s.port p).answers = a :: rest) :
    Moves s (s.modifyPort p fun port => { port with sending := some bytes, answers := rest })
  | sent (p : PortId) : Moves s (s.modifyPort p fun port => { port with sending := none })
  | answered (p : PortId) (q : QueuedRequest) (rest : List QueuedRequest) (notices : List NoticeEntry) (a : TaggedAnswer)
    (head : (s.port p).requests = q :: rest) (fewer : notices.length ≤ (s.port p).notices.length) :
    Moves s (s.modifyPort p fun port =>
      { port with requests := rest, answers := port.answers ++ [a], notices := notices })
  | granted (p : PortId) (q : QueuedRequest) (next : s.nextRequest = some (p, q)) :
    Moves s (s.grantRequest p q (q.request.work p))

/-! ### Each kind of command is a move -/

/-- The work of a port-local request leaves the state, or takes the head of the port's notice queue. -/
def TakesNotices (p : PortId) (work : State → State × Answer) : Prop :=
  ∀ s, (work s).1 = s ∨ ∃ e rest, (s.port p).notices = e :: rest ∧
    (work s).1 = s.modifyPort p fun port => { port with notices := rest }

theorem takesNotices_collect (p : PortId) : TakesNotices p (collectNotice p) := by
  intro s
  unfold collectNotice
  split
  case h_1 => exact .inl rfl
  case h_2 e rest h => exact .inr ⟨e, rest, h, rfl⟩

theorem moves_answerLocal (s : State) (p : PortId) (select : Request → Option (State → State × Answer))
    (hselect : ∀ r work, select r = some work → TakesNotices p work) : Moves s (s.answerLocal p select) := by
  unfold State.answerLocal
  split
  case h_1 => exact .stays
  case h_2 q rest hq =>
    split
    case h_1 => exact .stays
    case h_2 work hwork =>
      have popped (a : Answer) : Moves s ((s.popRequest p).pushAnswer p q.tag a) := by
        rw [State.pushAnswer, State.popRequest, State.modifyPort_modifyPort,
          State.modifyPort_congr (g := fun port => { port with
            requests := rest, answers := port.answers ++ [⟨q.tag, a⟩], notices := (s.port p).notices }) (by simp [hq])]
        exact .answered p q rest _ _ hq (Nat.le_refl _)
      split
      case isTrue => exact .stays
      case isFalse =>
        dsimp only
        split
        case isFalse => exact popped _
        case isTrue =>
          rcases hselect q.request work hwork (s.popRequest p) with hsame | ⟨e, taken, hnotices, htaken⟩
          · rw [hsame]
            exact popped _
          · rw [State.popRequest, State.port_modifyPort_self] at hnotices
            rw [htaken, State.pushAnswer, State.popRequest, State.modifyPort_modifyPort, State.modifyPort_modifyPort,
              State.modifyPort_congr (g := fun port => { port with
                requests := rest, answers := port.answers ++ [⟨q.tag, (work (s.popRequest p)).2⟩], notices := taken })
                (by simp [hq, State.popRequest])]
            exact .answered p q rest _ _ hq (by rw [hnotices]; exact Nat.le_succ _)

theorem moves_runGrant {s : State} (select : PortId → Request → Option (State → Done))
    (hselect : ∀ p r work, select p r = some work → work = r.work p) : Moves s (s.runGrant select) := by
  unfold State.runGrant
  split
  case h_1 => exact .stays
  case h_2 p q hnext =>
    split
    case h_1 => exact .stays
    case h_2 work hwork =>
      obtain rfl := hselect p q.request work hwork
      exact .granted p q hnext

theorem moves_of_exec {c : Instr} {s t : State} (h : exec c s = .next t) : Moves s t := by
  cases c
  all_goals simp only [exec] at h
  case powerOn a b =>
    obtain rfl := Host.Outcome.next.inj h
    exact .powerOn _
  case resetNAssert =>
    obtain rfl := Host.Outcome.next.inj h
    split
    case isTrue => exact .stays
    case isFalse hhigh => exact .resetFalls (by simpa using hhigh)
  case resetNRelease =>
    obtain rfl := Host.Outcome.next.inj h
    split
    case isTrue hlow => exact .resetRises _ hlow
    case isFalse => exact .stays
  case tickSecond =>
    obtain rfl := Host.Outcome.next.inj h
    split
    case h_1 hbase => exact .tick hbase
    case h_2 => exact .stays
  case dividerSecond =>
    obtain rfl := Host.Outcome.next.inj h
    split
    case h_1 => exact .stays
    case h_2 hbase => exact .divided hbase
  case windowExpiry =>
    obtain rfl := Host.Outcome.next.inj h
    exact .window
  case lapse =>
    obtain rfl := Host.Outcome.next.inj h
    split
    case h_1 hturn =>
      split
      case h_1 => exact .stays
      case h_2 i rest hhead => exact .lapse i rest hturn hhead
    case h_2 => exact .stays
  case searchStep =>
    obtain rfl := Host.Outcome.next.inj h
    split
    case h_1 => exact .stays
    case h_2 u hturn =>
      split
      case h_1 hparams => exact .searched u _ _ _ _ _ _ hturn hparams
      case h_2 => exact .stays
  case tallyStep =>
    obtain rfl := Host.Outcome.next.inj h
    split
    case h_1 => exact .stays
    case h_2 u hturn =>
      split
      case h_1 hparams => exact .tallied u _ _ hturn hparams
      case h_2 => exact .stays
  case purgeStep =>
    obtain rfl := Host.Outcome.next.inj h
    split
    case h_1 => exact .stays
    case h_2 u hturn =>
      split
      case h_1 hparams => exact .purged u _ _ hturn hparams
      case h_2 => exact .stays
  case issueRunStep =>
    obtain rfl := Host.Outcome.next.inj h
    split
    case h_1 => exact .stays
    case h_2 u hturn =>
      split
      case h_1 hparams => exact .issued u _ _ _ _ hturn hparams
      case h_2 => exact .stays
  case grantCompletion =>
    obtain rfl := Host.Outcome.next.inj h
    split
    case h_1 => exact .stays
    case h_2 f hflight =>
      split
      case isTrue hdiscard => exact .discarded f hflight hdiscard
      case isFalse hkept => exact .completed f hflight (by simpa using hkept)
  case frameReceived p b | idle p b | badLength p b | idleRecovery p b | byteReceived p b =>
    obtain rfl := Host.Outcome.next.inj h
    exact .byte p b
  case linkTimeout p gap =>
    obtain rfl := Host.Outcome.next.inj h
    split
    case isTrue => exact .stays
    case isFalse => exact .gap p (max (s.port p).gap gap)
  case answerTransmitStart p =>
    obtain rfl := Host.Outcome.next.inj h
    split
    case h_1 a rest _ hanswers => exact .sending p _ a rest hanswers
    case h_2 => exact .stays
  case answerSent p =>
    obtain rfl := Host.Outcome.next.inj h
    exact .sent p
  case collect p =>
    obtain rfl := Host.Outcome.next.inj h
    refine moves_answerLocal s p _ fun r work hwork => ?_
    split at hwork <;> simp only [Option.some.injEq, reduceCtorEq] at hwork
    subst hwork
    exact takesNotices_collect p
  case status p | portStatus p | ident p =>
    obtain rfl := Host.Outcome.next.inj h
    refine moves_answerLocal s p _ fun r work hwork => ?_
    split at hwork <;> simp only [Option.some.injEq, reduceCtorEq] at hwork
    subst hwork
    exact fun _ => .inl rfl
  all_goals
    obtain rfl := Host.Outcome.next.inj h
    refine moves_runGrant _ fun p r work hwork => ?_
    split at hwork <;> simp only [Option.some.injEq, reduceCtorEq] at hwork
    exact hwork.symm

theorem moves_refclkEdge (s : State) : Moves s s.refclkEdge := by
  unfold State.refclkEdge
  split
  case h_1 => exact .stays
  case h_2 hbase =>
    split
    case isTrue => exact .divided hbase
    case isFalse h => exact .counted hbase (by omega)

/-- A step is a move of the state whose queue has lost its front command. -/
theorem moves_of_step {s t : State} (h : step s = .next t) : ∃ queue, Moves { s with pending := queue } t := by
  unfold step at h
  split at h
  case h_1 =>
    obtain rfl := Host.Outcome.next.inj h
    exact ⟨s.pending, moves_refclkEdge s⟩
  case h_2 rest _ => exact ⟨rest, moves_of_exec h⟩

end Sys2Proof.Machine
end

section
/-! PROOFS. What a move leaves of the queues and the health of the ports, and the work of a request from the work on the
stores. -/

namespace Sys2Proof.Machine

/-! ### The works of requests -/

/-- The requests whose work is neither on the stores nor on the sweep units. -/
def settingKinds : List Kind :=
  [.setSeries, .setTime, .closeDay, .confirmClose, .setPort, .setTiming, .restorePort]

theorem probeCard_state (p : PortId) (code : CardCode) (s : State) : (probeCard p code s).state = s := by
  unfold probeCard
  split <;> rfl

theorem readCardRecord_state (address : Address) (s : State) : (readCardRecord address s).state = s := by
  unfold readCardRecord
  split <;> rfl

theorem reportDay_state (day : Nat) (s : State) : (reportDay day s).state = s := by
  unfold reportDay
  split <;> rfl

theorem SweepsKept.cancel {P : State → Prop} {R : Request → Prop} (W : SweepsKept P R) (u : UnitId) (s : State) (h : P s) :
    P (cancelUnit u s).state := by
  unfold cancelUnit
  split
  case isTrue => exact W.endSweep _ _ _ _ h
  case isFalse => exact h

/-- What the writes of the stores and of the sweep units keep, the work of a request keeps, given the settings. -/
theorem work_keeps {P : State → Prop} {R : Request → Prop} (K : StoresKept P) (W : SweepsKept P R) {p : PortId}
    {r : Request} {s : State} (hr : R r) (h : P s) (setting : r.kind ∈ settingKinds → P (r.work p s).state) :
    P (r.work p s).state := by
  cases r
  case setSeries | setTime | closeDay | confirmClose | setPort | setTiming | restorePort =>
    exact setting (by simp [settingKinds, Request.kind])
  case collect | status | portStatus | ident | readSeries | readHold | accounts | resetPort => exact h
  case probe code => exact (probeCard_state p code s).symm ▸ h
  case readCard address => exact (readCardRecord_state address s).symm ▸ h
  case dayReport day => exact (reportDay_state day s).symm ▸ h
  case reserve => exact K.reserve _ _ _ _ _ _ _ h
  case renew => exact K.renew _ _ _ h
  case capture => exact K.capture _ _ _ _ _ h
  case release => exact K.release _ _ _ h
  case redeem => exact K.redeem _ _ _ _ _ _ h
  case load => exact K.load _ _ _ _ _ h
  case issue => exact K.issue _ _ _ h
  case block | unblock => exact K.moveState _ _ _ _ h
  case retire => exact K.retire _ _ h
  case editCard => exact K.edit _ _ _ _ _ _ h
  case search => exact W.search _ _ _ _ _ _ _ _ hr h
  case tally => exact W.tally _ _ _ _ hr h
  case purge => exact W.purge _ _ _ _ h
  case issueRun => exact W.issueRun _ _ _ _ _ _ hr h
  case cancelSweep => exact W.cancel _ _ h
  case trialSet => exact K.trialSet _ _ _ h

/-! ### The same queues -/

/-- The port of the request in flight, and whether its answer will be discarded. -/
def State.flight (s : State) : Option (PortId × Bool) :=
  s.inFlight.map fun f => (f.port, f.discarded)

/-- Queues, counts and health of a port's record are those of another, and its notices in their range if those were. -/
structure Port.SameQueues (a b : Port) : Prop where
  requests : b.requests = a.requests
  answers : b.answers = a.answers
  health : b.health = a.health
  errorCount : b.errorCount = a.errorCount
  idleRun : b.idleRun = a.idleRun
  notices : a.notices.length ≤ Config.noticePlaces → b.notices.length ≤ Config.noticePlaces

theorem Port.SameQueues.refl (a : Port) : a.SameQueues a :=
  ⟨rfl, rfl, rfl, rfl, rfl, id⟩

theorem Port.SameQueues.trans {a b c : Port} (h1 : a.SameQueues b) (h2 : b.SameQueues c) : a.SameQueues c :=
  ⟨h2.requests.trans h1.requests, h2.answers.trans h1.answers, h2.health.trans h1.health,
    h2.errorCount.trans h1.errorCount, h2.idleRun.trans h1.idleRun, fun h => h2.notices (h1.notices h)⟩

/-- Every port's queues, counts and health are those of the first state, and so is the request in flight. -/
structure SameQueues (s w : State) : Prop where
  flight : w.flight = s.flight
  port : ∀ p, (s.port p).SameQueues (w.port p)

theorem SameQueues.refl (s : State) : SameQueues s s :=
  ⟨rfl, fun _ => .refl _⟩

theorem SameQueues.of_ports {s t w : State} (h : SameQueues s t) (hports : w.ports = t.ports)
    (hflight : w.inFlight = t.inFlight) : SameQueues s w :=
  ⟨by rw [← h.flight, State.flight, hflight, State.flight], fun p => by
    have hp : w.port p = t.port p := by rw [State.port, hports, State.port]
    exact hp ▸ h.port p⟩

theorem SameQueues.modifyPort {s t : State} (h : SameQueues s t) (p : PortId) {f : Port → Port}
    (hf : (t.port p).SameQueues (f (t.port p))) : SameQueues s (t.modifyPort p f) :=
  ⟨h.flight, fun q => by
    rw [State.port_modifyPort]
    split
    case isTrue heq => exact heq ▸ (h.port p).trans hf
    case isFalse => exact h.port q⟩

theorem pushNotice_length (n : Notice) (q : List NoticeEntry) (h : q.length ≤ Config.noticePlaces) :
    (pushNotice n q).length ≤ Config.noticePlaces := by
  unfold pushNotice
  split
  case isTrue hroom =>
    rw [List.length_append, List.length_singleton]
    omega
  case isFalse =>
    rw [List.length_append, List.length_singleton, List.length_dropLast]
    simp only [Config.noticePlaces] at h ⊢
    omega

theorem SameQueues.notify {s t : State} (h : SameQueues s t) (p : PortId) (n : Notice) : SameQueues s (t.notify p n) :=
  h.modifyPort p ⟨rfl, rfl, rfl, rfl, rfl, pushNotice_length n _⟩

theorem SameQueues.modifySweep {s t : State} (h : SameQueues s t) (u : UnitId) (f : Sweep → Sweep) :
    SameQueues s (t.modifySweep u f) :=
  h.of_ports rfl rfl

theorem SameQueues.setCard {s t : State} (h : SameQueues s t) (ref : CardRef) (c : Card) : SameQueues s (t.setCard ref c) := by
  cases ref <;> exact h.of_ports rfl rfl

theorem SameQueues.report {s t : State} (h : SameQueues s t) (ref : CardRef) (m : Movement) : SameQueues s (t.report ref m) := by
  cases ref <;> exact h.of_ports rfl rfl

theorem SameQueues.dropClose {s t : State} (h : SameQueues s t) (cause : Option DropCause) : SameQueues s (t.dropClose cause) := by
  unfold State.dropClose
  split
  case h_1 => exact h
  case h_2 =>
    split
    case h_1 => exact h.of_ports rfl rfl
    case h_2 =>
      have merged : SameQueues s { t with accounts := t.accounts.merged } := h.of_ports rfl rfl
      exact merged.notify _ _

theorem SameQueues.dropCloseOf {s t : State} (h : SameQueues s t) (p : PortId) (cause : DropCause) :
    SameQueues s (t.dropCloseOf p cause) := by
  unfold State.dropCloseOf
  split
  case isTrue => exact h.dropClose _
  case isFalse => exact h

theorem SameQueues.showDrop {s t : State} (before : State) (h : SameQueues s t) : SameQueues s (before.showDrop t) := by
  unfold State.showDrop
  split
  case isFalse => exact h
  case isTrue =>
    refine ⟨?_, h.port⟩
    rw [← h.flight]
    simp [State.flight, Function.comp_def]

theorem SameQueues.windowCheck {s t : State} (h : SameQueues s t) : SameQueues s t.windowCheck := by
  unfold State.windowCheck
  split
  case h_1 => exact h
  case h_2 =>
    split
    case isTrue => exact (h.dropClose _).showDrop _
    case isFalse => exact h

theorem SameQueues.notifyOff {s t : State} (h : SameQueues s t) (p : PortId) (n : Notice) :
    SameQueues s (t.notifyOff p n) := by
  refine ⟨by rw [State.notifyOff_rest]; exact h.flight, fun q => ?_⟩
  rw [State.port_notifyOff]
  split
  case isTrue => exact (h.port q).trans ⟨rfl, rfl, rfl, rfl, rfl, pushNotice_length n _⟩
  case isFalse => exact h.port q

theorem storesKept_sameQueues (s : State) : StoresKept (SameQueues s) where
  card _ ref c h := h.setCard ref c
  hold _ _ _ h := h.of_ports rfl rfl
  lists _ _ _ h := h.of_ports rfl rfl
  count _ _ _ h := h.of_ports rfl rfl
  report _ ref m h := h.report ref m
  trials _ _ h := h.of_ports rfl rfl

theorem sweepsKept_sameQueues (s : State) : SweepsKept (SameQueues s) fun _ => True :=
  sweepsKept_of_writes (fun _ p n h => h.notify p n) (fun _ u f h => h.modifySweep u f) (storesKept_sameQueues s) _

theorem SameQueues.openClose {s t : State} (h : SameQueues s t) (p : PortId) : SameQueues s (openClose p t).state := by
  unfold Machine.openClose
  split
  case h_1 => exact h
  case h_2 => exact h.of_ports rfl rfl

theorem SameQueues.confirmPending {s t : State} (h : SameQueues s t) (p : PortId) :
    SameQueues s (confirmPending p t).state := by
  unfold Machine.confirmPending
  split
  case h_1 => exact h
  case h_2 =>
    split
    case isTrue => exact h.of_ports rfl rfl
    case isFalse => exact h

theorem SameQueues.setLineTiming {s t : State} (h : SameQueues s t) (target : PortId) (timeout : Nat) (recovery : Recovery)
    (window : Nat) (base : TimeBase) (divisor : Nat) :
    SameQueues s (setLineTiming target timeout recovery window base divisor t).state := by
  unfold Machine.setLineTiming
  split
  case isTrue => exact h
  case isFalse =>
    have written := h.modifyPort target (f := fun port => { port with timeout := timeout, recovery := recovery })
      ⟨rfl, rfl, rfl, rfl, rfl, id⟩
    exact written.of_ports rfl rfl

/-- Every request but RESTORE-PORT leaves queues, counts and health of all ports to the grant around it. -/
theorem work_sameQueues {r : Request} (hr : r.kind ≠ .restorePort) (p : PortId) (s : State) :
    SameQueues s (r.work p s).state := by
  have h := SameQueues.refl s
  refine work_keeps (storesKept_sameQueues s) (sweepsKept_sameQueues s) trivial h fun hsetting => ?_
  cases r
  case setSeries => exact writeSeries_keeps h fun _ _ => h.of_ports rfl rfl
  case setTime => exact h.of_ports rfl rfl
  case closeDay => exact h.openClose p
  case confirmClose => exact h.confirmPending p
  case setPort =>
    exact (storesKept_sameQueues s).setPortMode (fun _ p c h => h.dropCloseOf p c)
      (fun _ p _ _ h => h.modifyPort p ⟨rfl, rfl, rfl, rfl, rfl, id⟩) _ _ _ s h
  case setTiming => exact h.setLineTiming _ _ _ _ _ _
  case restorePort => exact absurd rfl hr
  all_goals exact absurd hsetting (by simp [settingKinds, Request.kind])

end Sys2Proof.Machine
end

section
/-! PROOFS. The laws of the ports: every move keeps each port's queues, places and counts in their ranges, its health that
of its count, and a port in OFF empty. -/

namespace Sys2Proof.Machine

/-! ### One port's record -/

/-- A port's record in its ranges, with `promised` of its answer places promised to the request in flight. -/
structure RecordOk (port : Port) (promised : Nat) : Prop where
  requests : port.requests.length ≤ Config.requestPlaces
  places : port.answers.length + port.requests.length + promised ≤ Config.answerPlaces
  notices : port.notices.length ≤ Config.noticePlaces
  contents : ∀ q ∈ port.requests, q.request.inRange = true
  count : port.errorCount ≤ 255
  run : port.idleRun < Config.idleRunGoal
  follows : port.health ≠ .off → port.health = healthOfCount port.errorCount ∧ port.idleRun = 0
  cutOff : port.health = .off → port.errorCount = 255 ∧ port.requests = [] ∧ port.answers = []

/-- The answer places promised to a port's request in flight. -/
def State.promised (s : State) (p : PortId) : Nat :=
  if s.inFlightAt p then 1 else 0

theorem State.inFlightAt_eq (s : State) (p : PortId) : s.inFlightAt p = decide (s.flight.map Prod.fst = some p) := by
  unfold State.inFlightAt State.flight
  cases s.inFlight with
  | none => rfl
  | some f => simp

theorem State.promised_congr {s w : State} {p : PortId} (h : w.flight.map Prod.fst = s.flight.map Prod.fst) :
    w.promised p = s.promised p := by
  rw [State.promised, State.inFlightAt_eq, h, ← State.inFlightAt_eq, State.promised]

theorem discards_iff (s : State) (p : PortId) :
    (∀ f, s.inFlight = some f → f.port = p → f.discarded = true) ↔ s.flight ≠ some (p, false) := by
  unfold State.flight
  cases s.inFlight with
  | none => simp
  | some f => simp

theorem portOk_iff (s : State) (p : PortId) : PortOk s p ↔
    RecordOk (s.port p) (s.promised p) ∧ ((s.port p).health = .off → s.flight ≠ some (p, false)) := by
  constructor
  · rintro ⟨h1, h2, h3, h4, h5, h6, h7, h8, h9⟩
    exact ⟨⟨h1, h2, h3, h4, h5, h6, h7, h8⟩, fun h => (discards_iff s p).mp (h9 h)⟩
  · rintro ⟨⟨h1, h2, h3, h4, h5, h6, h7, h8⟩, h9⟩
    exact ⟨h1, h2, h3, h4, h5, h6, h7, h8, fun h => (discards_iff s p).mpr (h9 h)⟩

theorem RecordOk.of_same {a b : Port} {n : Nat} (h : RecordOk a n) (hs : a.SameQueues b) : RecordOk b n := by
  obtain ⟨hrequests, hanswers, hhealth, hcount, hrun, hnotices⟩ := hs
  constructor
  case notices => exact hnotices h.notices
  all_goals simp only [hrequests, hanswers, hhealth, hcount, hrun]
  case requests => exact h.requests
  case places => exact h.places
  case contents => exact h.contents
  case count => exact h.count
  case run => exact h.run
  case follows => exact h.follows
  case cutOff => exact h.cutOff

theorem healthOfCount_ne_off (n : Nat) : healthOfCount n ≠ .off := by
  unfold healthOfCount
  split
  case isTrue => decide
  case isFalse => split <;> decide

/-- Count, health and notices written at a port below OFF. -/
theorem RecordOk.counted {port : Port} {n count : Nat} {notices : List NoticeEntry} (h : RecordOk port n)
    (hoff : port.health ≠ .off) (hcount : count ≤ 255) (hnotices : notices.length ≤ Config.noticePlaces) :
    RecordOk { port with errorCount := count, health := healthOfCount count, notices := notices } n where
  requests := h.requests
  places := h.places
  notices := hnotices
  contents := h.contents
  count := hcount
  run := h.run
  follows _ := ⟨rfl, (h.follows hoff).2⟩
  cutOff hcut := absurd hcut (healthOfCount_ne_off count)

/-- An answer takes a free place at a port below OFF. -/
theorem RecordOk.answer {port : Port} {n : Nat} (h : RecordOk port n) (hoff : port.health ≠ .off)
    (hroom : port.answers.length + port.requests.length + n < Config.answerPlaces) (a : TaggedAnswer) :
    RecordOk { port with answers := port.answers ++ [a] } n where
  requests := h.requests
  places := by
    dsimp only
    rw [List.length_append, List.length_singleton]
    omega
  notices := h.notices
  contents := h.contents
  count := h.count
  run := h.run
  follows := h.follows
  cutOff hcut := absurd hcut hoff

/-! ### One port written -/

theorem PortsOk.of_same {s w : State} (h : PortsOk s) (hs : SameQueues s w) : PortsOk w := by
  intro p
  obtain ⟨record, discards⟩ := (portOk_iff s p).mp (h p)
  refine (portOk_iff w p).mpr ⟨?_, ?_⟩
  · rw [State.promised_congr (congrArg _ hs.flight)]
    exact record.of_same (hs.port p)
  · rw [(hs.port p).health, hs.flight]
    exact discards

theorem PortsOk.record {s : State} (h : PortsOk s) (p : PortId) : RecordOk (s.port p) (s.promised p) :=
  ((portOk_iff s p).mp (h p)).1

theorem PortsOk.discards {s : State} (h : PortsOk s) {p : PortId} (hoff : (s.port p).health = .off) :
    s.flight ≠ some (p, false) :=
  ((portOk_iff s p).mp (h p)).2 hoff

theorem PortsOk.write {s : State} (h : PortsOk s) {p : PortId} {f : Port → Port}
    (hrecord : RecordOk (f (s.port p)) (s.promised p)) (hoff : (f (s.port p)).health = .off → s.flight ≠ some (p, false)) :
    PortsOk (s.modifyPort p f) := by
  intro q
  obtain ⟨record, discards⟩ := (portOk_iff s q).mp (h q)
  refine (portOk_iff _ q).mpr ?_
  rw [State.port_modifyPort]
  split
  case isTrue heq =>
    subst heq
    exact ⟨hrecord, hoff⟩
  case isFalse => exact ⟨record, discards⟩

theorem PortsOk.setCount {s : State} (h : PortsOk s) {p : PortId} (hoff : (s.port p).health ≠ .off) {count : Nat}
    (hcount : count ≤ 255) (cause : HealthCause) : PortsOk (s.setCount p count cause) := by
  rw [State.setCount_eq]
  refine h.write ((h.record p).counted hoff hcount ?_) fun hcut => absurd hcut (healthOfCount_ne_off count)
  split
  case isTrue => exact (h.record p).notices
  case isFalse => exact pushNotice_length _ _ (h.record p).notices

theorem PortsOk.makeActive {s : State} (h : PortsOk s) (p : PortId) (cause : HealthCause) : PortsOk (s.makeActive p cause) := by
  rw [State.makeActive_eq]
  have record := h.record p
  refine h.write ?_ fun hcut => by cases hcut
  exact {
    requests := record.requests
    places := record.places
    notices := by
      dsimp only
      split
      case isTrue => exact record.notices
      case isFalse => exact pushNotice_length _ _ record.notices
    contents := record.contents
    count := Nat.zero_le _
    run := (by decide : 0 < Config.idleRunGoal)
    follows := fun _ => ⟨rfl, rfl⟩
    cutOff := fun hcut => by cases hcut }

theorem State.flight_discardInFlight (s : State) (p : PortId) :
    (s.discardInFlight p).flight = s.flight.map fun f => if f.1 = p then (f.1, true) else f := by
  simp only [State.flight, State.discardInFlight, Option.map_map]
  congr 1
  funext f
  simp only [Function.comp]
  split <;> rfl

theorem discardInFlight_flight_ne (s : State) (p : PortId) : (s.discardInFlight p).flight ≠ some (p, false) := by
  rw [State.flight_discardInFlight]
  rcases s.flight with _ | ⟨q, discarded⟩
  · simp
  · by_cases hq : q = p <;> simp [hq]

theorem PortsOk.discardInFlight {s : State} (h : PortsOk s) (p : PortId) : PortsOk (s.discardInFlight p) := by
  intro q
  obtain ⟨record, discards⟩ := (portOk_iff s q).mp (h q)
  have hport : (s.discardInFlight p).flight.map Prod.fst = s.flight.map Prod.fst := by
    rw [State.flight_discardInFlight, Option.map_map]
    congr 1
    funext f
    simp only [Function.comp]
    split <;> rfl
  refine (portOk_iff _ q).mpr ⟨State.promised_congr hport ▸ record, fun hoff => ?_⟩
  by_cases hq : q = p
  · exact hq ▸ discardInFlight_flight_ne s p
  · have := discards hoff
    rw [State.flight_discardInFlight]
    rcases hflight : s.flight with _ | ⟨r, discarded⟩
    · simp
    · by_cases hr : r = p
      · simp [hr, Ne.symm hq]
      · rw [Option.map_some, if_neg hr, ← hflight]
        exact this

/-- The writes of an entry to OFF: the port is cut off, and its answer in flight will be discarded (R166). -/
theorem PortsOk.cutOff {s : State} (h : PortsOk s) (p : PortId) : PortsOk (s.cutOff p) := by
  have discarded := h.discardInFlight p
  have record := discarded.record p
  exact discarded.write (f := fun port =>
      { port with errorCount := 255, health := .off, idleRun := 0, requests := [], answers := [] }) { record with
    requests := Nat.zero_le _
    places := by
      have := record.places
      change 0 + 0 + _ ≤ _
      omega
    contents := fun _ hq => absurd hq List.not_mem_nil
    count := Nat.le_refl _
    run := (by decide : 0 < Config.idleRunGoal)
    follows := fun hne => absurd rfl hne
    cutOff := fun _ => ⟨rfl, rfl, rfl⟩ } fun _ => discardInFlight_flight_ne s p

theorem PortsOk.enterOff {s : State} (h : PortsOk s) (p : PortId) : PortsOk (s.enterOff p) := by
  rw [State.enterOff_eq]
  have noticed := (h.cutOff p).of_same ((SameQueues.refl _).notifyOff p (.portState p (s.port p).health .off 255 .errors))
  exact noticed.of_same (((SameQueues.refl _).dropCloseOf p .portOff).showDrop _)

theorem PortsOk.raiseCount {s : State} (h : PortsOk s) (p : PortId) (k : Nat) : PortsOk (s.raiseCount p k) := by
  unfold State.raiseCount
  split
  case isTrue => exact h
  case isFalse hoff =>
    split
    case isTrue => exact h.enterOff p
    case isFalse hroom => exact h.setCount hoff (by omega) _

theorem PortsOk.idleRun {s : State} (h : PortsOk s) {p : PortId} {n : Nat} (hn : n < Config.idleRunGoal)
    (hoff : (s.port p).health = .off) : PortsOk (s.modifyPort p fun port => { port with idleRun := n }) :=
  h.write { h.record p with run := hn, follows := fun hne => absurd hoff hne } fun _ => h.discards hoff

theorem PortsOk.linkError {s : State} (h : PortsOk s) (p : PortId) : PortsOk (s.linkError p) := by
  unfold State.linkError
  split
  case isTrue hoff => exact h.idleRun (by decide) hoff
  case isFalse => exact h.raiseCount p 8

theorem PortsOk.receiverTo {s : State} (h : PortsOk s) (p : PortId) (r : Receiver) : PortsOk (s.receiverTo p r) :=
  h.of_same ((SameQueues.refl s).modifyPort p ⟨rfl, rfl, rfl, rfl, rfl, id⟩)

theorem PortsOk.portReset {s : State} (h : PortsOk s) (p : PortId) : PortsOk (s.portReset p) := by
  have record := h.record p
  have emptied : PortsOk (s.modifyPort p fun port =>
      { port with requests := [], answers := [], notices := [], receiver := .hunt, gap := 0 }) :=
    h.write { record with
      requests := Nat.zero_le _
      places := by
        have := record.places
        change 0 + 0 + _ ≤ _
        omega
      notices := Nat.zero_le _
      contents := fun _ hq => absurd hq List.not_mem_nil
      cutOff := fun hcut => ⟨(record.cutOff hcut).1, rfl, rfl⟩ } h.discards
  exact (emptied.discardInFlight p).of_same ((SameQueues.refl _).dropCloseOf p _)

theorem PortsOk.timeOut {s : State} (h : PortsOk s) (p : PortId) : PortsOk (s.timeOut p) := by
  have errored : PortsOk ((s.receiverTo p .hunt).linkError p) := (h.receiverTo p .hunt).linkError p
  unfold State.timeOut
  dsimp only
  split
  case h_1 => exact errored
  case h_2 => exact (errored.portReset p).of_same ((SameQueues.refl _).showDrop _)

theorem PortsOk.gapCheck {s : State} (h : PortsOk s) (p : PortId) : PortsOk (s.gapCheck p) := by
  unfold State.gapCheck
  split
  case isTrue => exact h.timeOut p
  case isFalse => exact h

theorem PortsOk.finish {s : State} (h : PortsOk s) (tail : Tail) : PortsOk (s.finish tail) := by
  cases tail with
  | nothing => exact h
  | window => exact h.of_same (SameQueues.refl s).windowCheck
  | gap p => exact h.gapCheck p
  | reset p => exact h.portReset p

/-! ### Frames -/

theorem State.freePlaces_ne_zero_iff (s : State) (p : PortId) : s.freePlaces p ≠ 0 ↔
    (s.port p).answers.length + (s.port p).requests.length + s.promised p < Config.answerPlaces := by
  unfold State.freePlaces State.usedPlaces State.promised
  omega

theorem PortsOk.pushAnswer {s : State} (h : PortsOk s) {p : PortId} (hoff : (s.port p).health ≠ .off)
    (hroom : s.freePlaces p ≠ 0) (tag : Byte) (a : Answer) : PortsOk (s.pushAnswer p tag a) :=
  h.write ((h.record p).answer hoff ((s.freePlaces_ne_zero_iff p).mp hroom) _) fun hcut => absurd hcut hoff

theorem PortsOk.refuseAtArrival {s : State} (h : PortsOk s) {p : PortId} (hoff : (s.port p).health ≠ .off) (tag : Byte)
    (outcome : OutcomeCode) : PortsOk (s.refuseAtArrival p tag outcome) := by
  unfold State.refuseAtArrival
  split
  case isTrue => exact h.raiseCount p 1
  case isFalse hroom =>
    simp only [Bool.or_eq_true, decide_eq_true_eq, not_or] at hroom
    exact (h.pushAnswer hoff hroom.2 tag _).raiseCount p 1

theorem PortsOk.intake {s : State} (h : PortsOk s) {p : PortId} (hoff : (s.port p).health ≠ .off) (tag : Byte)
    {r : Request} (hr : r.inRange = true) : PortsOk (s.intake p tag r) := by
  have record := h.record p
  unfold State.intake
  split
  case isTrue =>
    split
    case isTrue => exact h
    case isFalse hroom => exact h.pushAnswer hoff hroom tag _
  case isFalse hfull =>
    simp only [State.queueFull, Bool.or_eq_true, decide_eq_true_eq, not_or] at hfull
    have hplaces := (s.freePlaces_ne_zero_iff p).mp hfull.2
    have taken : PortsOk (s.modifyPort p fun port => { port with requests := port.requests ++ [⟨tag, r⟩] }) :=
      h.write { record with
        requests := by
          rw [List.length_append, List.length_singleton]
          omega
        places := by
          dsimp only
          rw [List.length_append, List.length_singleton]
          omega
        contents := fun q hq => by
          rcases List.mem_append.mp hq with hold | hnew
          · exact record.contents q hold
          · rw [List.mem_singleton.mp hnew]
            exact hr
        cutOff := fun hcut => absurd hcut hoff } fun hcut => absurd hcut hoff
    have hsame := s.port_modifyPort_self p fun port => { port with requests := port.requests ++ [⟨tag, r⟩] }
    refine taken.setCount ?_ ?_ _
    · rw [hsame]
      exact hoff
    · rw [hsame]
      exact (Nat.sub_le _ _).trans record.count

theorem judge_request_inRange {role : Role} {p : PortId} {body : List Byte} {r : Request}
    (h : judge role p body = .request r) : r.inRange = true := by
  unfold judge judgeKind at h
  split at h
  case isTrue => cases h
  case isFalse =>
    split at h
    case h_1 => cases h
    case h_2 =>
      split at h
      case isTrue => cases h
      case isFalse =>
        split at h
        case isTrue => cases h
        case isFalse =>
          split at h
          case h_1 => cases h
          case h_2 hread =>
            obtain rfl := Verdict.request.inj h
            exact (requestOf_sound hread).2

theorem PortsOk.frameJudged {s : State} (h : PortsOk s) {p : PortId} (hoff : (s.port p).health ≠ .off) (body : List Byte) :
    PortsOk (s.frameJudged p body) := by
  unfold State.frameJudged
  split
  case h_1 => exact h.setCount hoff ((Nat.sub_le _ _).trans (h.record p).count) _
  case h_2 => exact h.refuseAtArrival hoff _ _
  case h_3 r hjudge => exact h.intake hoff _ (judge_request_inRange hjudge)

theorem PortsOk.frameInOff {s : State} (h : PortsOk s) {p : PortId} (hoff : (s.port p).health = .off) (body : List Byte) :
    PortsOk (s.frameInOff p body) := by
  unfold State.frameInOff
  split
  case isTrue =>
    split
    case isTrue => exact h.makeActive p _
    case isFalse hrun =>
      rw [State.modifyPort_congr (g := fun port => { port with idleRun := (s.port p).idleRun + 1 }) rfl]
      exact h.idleRun (by omega) hoff
  case isFalse => exact h.idleRun (by decide) hoff

theorem PortsOk.frameComplete {s : State} (h : PortsOk s) (p : PortId) (body : List Byte) (high low : Byte) :
    PortsOk (s.frameComplete p body high low) := by
  unfold State.frameComplete
  split
  case isTrue =>
    split
    case isTrue hoff => exact h.frameInOff hoff body
    case isFalse hoff => exact h.frameJudged hoff body
  case isFalse => exact h.linkError p

theorem PortsOk.receiveByte {s : State} (h : PortsOk s) (p : PortId) (b : Byte) : PortsOk (s.receiveByte p b) := by
  unfold State.receiveByte
  split
  case isTrue => exact h
  case isFalse =>
    split
    case h_1 =>
      split
      case isTrue => exact h.receiverTo p _
      case isFalse => exact h
    case h_2 =>
      split
      case isTrue => exact h.receiverTo p _
      case isFalse => exact (h.receiverTo p _).linkError p
    case h_3 => split <;> exact h.receiverTo p _
    case h_4 => exact h.receiverTo p _
    case h_5 => exact (h.receiverTo p _).frameComplete p _ _ _

/-! ### Grants -/

/-- The state a port's request is executed on: the engine is free, a place is there for the answer, and the port is not
in OFF. -/
structure Granting (s : State) (p : PortId) : Prop where
  ports : PortsOk s
  free : s.inFlight = none
  room : (s.port p).answers.length + (s.port p).requests.length < Config.answerPlaces
  on : (s.port p).health ≠ .off

theorem Granting.of_same {s w : State} {p : PortId} (h : Granting s p) (hs : SameQueues s w) : Granting w p where
  ports := h.ports.of_same hs
  free := by
    have := hs.flight
    rw [State.flight, State.flight, h.free, Option.map_none, Option.map_eq_none_iff] at this
    exact this
  room := by
    rw [(hs.port p).answers, (hs.port p).requests]
    exact h.room
  on := by
    rw [(hs.port p).health]
    exact h.on

theorem PortsOk.granting {s : State} (h : PortsOk s) {p : PortId} {q : QueuedRequest} (hnext : s.nextRequest = some (p, q)) :
    Granting (s.popped p) p := by
  obtain ⟨hgrant, rest, hrequests⟩ := (s.nextRequest_iff p q).mp hnext
  obtain ⟨hfree, -, -⟩ := (s.nextGrant_iff _).mp hgrant
  have record := h.record p
  have hon : (s.port p).health ≠ .off := fun hoff => by
    have := (record.cutOff hoff).2.1
    rw [hrequests] at this
    cases this
  have hport : (s.popped p).port p = { s.port p with requests := rest } := by
    rw [State.popped, State.popRequest, State.port_modifyPort_self]
    exact congrArg (fun l => { s.port p with requests := l }) (congrArg List.tail hrequests)
  have hplaces := record.places
  rw [hrequests, List.length_cons] at hplaces
  refine ⟨?_, hfree, ?_, by rw [hport]; exact hon⟩
  · have shorter : RecordOk { s.port p with requests := rest } (s.promised p) :=
      { record with
        requests := by
          have := record.requests
          rw [hrequests, List.length_cons] at this
          exact (Nat.le_succ _).trans this
        places := by
          dsimp only
          omega
        contents := fun q hq => record.contents q (hrequests ▸ List.mem_cons_of_mem _ hq)
        cutOff := fun hoff => absurd hoff hon }
    have base : PortsOk { s with lastGranted := (Claimant.port p).position } := h.of_same ((SameQueues.refl s).of_ports rfl rfl)
    have := base.write (f := fun port => { port with requests := rest }) shorter fun hoff => absurd hoff hon
    rwa [State.popped, State.popRequest, State.modifyPort_congr (g := fun port => { port with requests := rest })]
    exact congrArg (fun l => { s.port p with requests := l }) (congrArg List.tail hrequests)
  · rw [hport]
    dsimp only
    omega

theorem Granting.startGrant {s : State} {p : PortId} (h : Granting (s.popped p) p) (r : Request) :
    Granting (s.startGrant p r) p := by
  have dropped : Granting ((s.popped p).dropCloseOf p .strayRequest) p := h.of_same ((SameQueues.refl _).dropCloseOf p _)
  unfold State.startGrant
  dsimp only
  split
  case isTrue => exact h
  case isFalse => exact dropped

theorem Granting.makeActive {s : State} {p : PortId} (h : Granting s p) (target : PortId) (cause : HealthCause) :
    Granting (s.makeActive target cause) p := by
  refine ⟨h.ports.makeActive target cause, ?_, ?_, ?_⟩
  · rw [State.makeActive_eq]
    exact h.free
  · rw [State.makeActive_eq, State.port_modifyPort]
    split
    case isTrue heq => exact heq ▸ h.room
    case isFalse => exact h.room
  · rw [State.makeActive_eq, State.port_modifyPort]
    split
    case isTrue => exact fun hoff => by cases hoff
    case isFalse => exact h.on

theorem Granting.work {s : State} {p : PortId} (h : Granting s p) (r : Request) : Granting (r.work p s).state p := by
  by_cases hr : r.kind = .restorePort
  · cases r
    case restorePort target => exact h.makeActive target .restore
    all_goals cases hr
  · exact h.of_same (work_sameQueues hr p s)

/-- The answer of a grant is promised a place of its port. -/
theorem Granting.answering {s : State} {p : PortId} (h : Granting s p) (tag : Byte) (a : Answer) (view : StatusView) :
    PortsOk { s with inFlight := some ⟨p, tag, a, false, view⟩ } := by
  intro q
  have hidle : s.promised q = 0 := by
    rw [State.promised, State.inFlightAt_eq, State.flight, h.free]
    rfl
  have record := h.ports.record q
  rw [hidle] at record
  refine (portOk_iff _ q).mpr ⟨?_, fun hoff hflight => ?_⟩
  · refine { record with places := ?_ }
    by_cases hq : p = q
    · subst hq
      have := h.room
      have hone : State.promised { s with inFlight := some ⟨p, tag, a, false, view⟩ } p = 1 := by
        simp [State.promised, State.inFlightAt]
      rw [hone]
      exact this
    · have hnone : State.promised { s with inFlight := some ⟨p, tag, a, false, view⟩ } q = 0 := by
        simp [State.promised, State.inFlightAt, hq]
      rw [hnone]
      exact record.places
  · obtain rfl : p = q := congrArg Prod.fst (Option.some.inj hflight)
    exact h.on hoff

theorem PortsOk.grantRequest {s : State} (h : PortsOk s) {p : PortId} {q : QueuedRequest}
    (hnext : s.nextRequest = some (p, q)) : PortsOk (s.grantRequest p q (q.request.work p)) := by
  have met := (h.granting hnext).startGrant q.request
  unfold State.grantRequest
  dsimp only
  split
  case isTrue => exact ((met.work q.request).answering _ _ _).finish _
  case isFalse => exact (met.answering _ _ _).finish _

/-! ### Every move -/

theorem PortsOk.answered {s : State} (h : PortsOk s) {p : PortId} {q : QueuedRequest} {rest : List QueuedRequest}
    {notices : List NoticeEntry} (a : TaggedAnswer) (hhead : (s.port p).requests = q :: rest)
    (hfewer : notices.length ≤ (s.port p).notices.length) :
    PortsOk (s.modifyPort p fun port =>
      { port with requests := rest, answers := port.answers ++ [a], notices := notices }) := by
  have record := h.record p
  have hon : (s.port p).health ≠ .off := fun hoff => by
    have := (record.cutOff hoff).2.1
    rw [hhead] at this
    cases this
  have hrequests := record.requests
  have hplaces := record.places
  rw [hhead, List.length_cons] at hrequests hplaces
  refine h.write { record with
    requests := (Nat.le_succ _).trans hrequests
    places := ?_
    notices := hfewer.trans record.notices
    contents := fun q hq => record.contents q (hhead ▸ List.mem_cons_of_mem _ hq)
    cutOff := fun hoff => absurd hoff hon } fun hoff => absurd hoff hon
  dsimp only
  rw [List.length_append, List.length_singleton]
  omega

/-- The grant in progress over, no place is promised. -/
theorem PortsOk.landed {s : State} (h : PortsOk s) : PortsOk { s with inFlight := none } := by
  intro q
  have record := h.record q
  have hplaces := record.places
  refine (portOk_iff _ q).mpr ⟨{ record with places := ?_ }, fun _ hflight => by cases hflight⟩
  exact (Nat.add_le_add_left (Nat.zero_le _) _).trans hplaces

theorem PortsOk.completed {s : State} (h : PortsOk s) {f : InFlight} (hflight : s.inFlight = some f)
    (hkept : f.discarded = false) : PortsOk (({ s with inFlight := none } : State).pushAnswer f.port f.tag f.answer) := by
  have hon : (s.port f.port).health ≠ .off := fun hoff => h.discards hoff (by rw [State.flight, hflight, ← hkept]; rfl)
  have hone : s.promised f.port = 1 := by simp [State.promised, State.inFlightAt, hflight]
  have hplaces := (h.record f.port).places
  rw [hone] at hplaces
  refine h.landed.pushAnswer hon ((State.freePlaces_ne_zero_iff _ _).mpr ?_) _ _
  exact Nat.lt_of_succ_le hplaces

/-- A port with nothing in its queues and no errors is in its ranges. -/
theorem RecordOk.start (port : Port) (hrequests : port.requests = []) (hanswers : port.answers = [])
    (hnotices : port.notices = []) (hcount : port.errorCount = 0) (hrun : port.idleRun = 0) (hhealth : port.health = .active) :
    RecordOk port 0 := by
  constructor
  all_goals simp [*, Config.idleRunGoal, healthOfCount]

theorem portsOk_reset : PortsOk State.reset := fun p => by
  refine (portOk_iff _ p).mpr ⟨?_, fun _ hflight => by cases hflight⟩
  rw [State.port_reset]
  exact .start _ rfl rfl rfl rfl rfl rfl

theorem portsOk_resetLine (s : State) : PortsOk s.resetLine := fun p => by
  refine (portOk_iff _ p).mpr ⟨?_, fun _ hflight => by cases hflight⟩
  rw [State.port_resetLine]
  exact .start _ rfl rfl rfl rfl rfl rfl

theorem sameQueues_resetRelease (s : State) (rate : LineRate) : SameQueues s (s.resetRelease rate) :=
  ⟨rfl, fun p => by
    rw [State.port_resetRelease]
    exact ⟨rfl, rfl, rfl, rfl, rfl, id⟩⟩

theorem PortsOk.sending {s : State} (h : PortsOk s) {p : PortId} {a : TaggedAnswer} {rest : List TaggedAnswer}
    (hanswers : (s.port p).answers = a :: rest) (bytes : List Byte) :
    PortsOk (s.modifyPort p fun port => { port with sending := some bytes, answers := rest }) := by
  have record := h.record p
  have hplaces := record.places
  rw [hanswers, List.length_cons] at hplaces
  refine h.write { record with places := ?_, cutOff := fun hoff => ?_ } h.discards
  · dsimp only
    omega
  · have := (record.cutOff hoff).2.2
    rw [hanswers] at this
    cases this

theorem PortsOk.moves {s t : State} (h : PortsOk s) (hmove : Moves s t) : PortsOk t := by
  have same := SameQueues.refl s
  cases hmove
  case stays => exact h
  case powerOn => exact portsOk_reset.of_same ((SameQueues.refl _).of_ports rfl rfl)
  case resetFalls => exact portsOk_resetLine s
  case resetRises rate _ => exact h.of_same (sameQueues_resetRelease s rate)
  case tick => exact h.of_same (SameQueues.windowCheck (same.of_ports rfl rfl))
  case counted => exact h.of_same (same.of_ports rfl rfl)
  case divided => exact h.of_same (SameQueues.windowCheck (same.of_ports rfl rfl))
  case window => exact h.of_same same.windowCheck
  case lapse i rest turn head =>
    have K := storesKept_sameQueues s
    have granted : SameQueues s (s.grantTo .expiry) := same.of_ports rfl rfl
    exact h.of_same ((K.note _ _ _ _ _ (K.freeHold _ i granted)).notify _ _)
  case searched u start stop critA critB limit skip turn params =>
    exact h.of_same ((sweepsKept_sameQueues s).searchStep _ u _ _ _ _ _ _ (same.of_ports rfl rfl) params)
  case tallied u start stop turn params =>
    exact h.of_same ((sweepsKept_sameQueues s).tallyStep _ u _ _ (same.of_ports rfl rfl) params)
  case purged u owner till turn params =>
    exact h.of_same ((sweepsKept_sameQueues s).purgeStep _ u _ _ (same.of_ports rfl rfl) params)
  case issued u start stop stride value turn params =>
    exact h.of_same ((sweepsKept_sameQueues s).issueRunStep _ u _ _ _ _ (same.of_ports rfl rfl) params)
  case discarded => exact h.landed
  case completed f flight kept => exact h.completed flight kept
  case byte p b => exact h.receiveByte p b
  case gap p gap =>
    have measured : PortsOk (s.modifyPort p fun port => { port with gap := gap }) :=
      h.of_same (same.modifyPort p ⟨rfl, rfl, rfl, rfl, rfl, id⟩)
    exact measured.gapCheck p
  case sending p bytes a rest answers => exact h.sending answers bytes
  case sent p => exact h.of_same (same.modifyPort p ⟨rfl, rfl, rfl, rfl, rfl, id⟩)
  case answered p q rest notices a head fewer => exact h.answered a head fewer
  case granted p q next => exact h.grantRequest next

/-- Settles O54: every move writes one port's record at a time within its ranges, or leaves queues and health as they are. -/
theorem stepKeepsPorts : Obligations.StepKeepsPorts := by
  intro s t h hstep
  obtain ⟨queue, hmove⟩ := moves_of_step hstep
  have front : PortsOk { s with pending := queue } := h.of_same ((SameQueues.refl s).of_ports rfl rfl)
  exact front.moves hmove

end Sys2Proof.Machine
end

section
/-! PROOFS. The laws of the clock and of the business day: the accounts block by itself, the standing of the ports it names,
and the deadline of a pending close, which the window comparison restores after every write of device time. -/

namespace Sys2Proof.Machine

/-! ### The accounts block -/

/-- The laws of the business day that read the accounts block only. -/
structure BooksOk (a : Accounts) : Prop where
  opened : a.close = .opened → a.next = .zero
  frozen : ∀ owner frozen deadline, a.close = .closing owner frozen deadline → frozen = a.current
  window : 1 ≤ a.window ∧ a.window ≤ 255
  day : 1 ≤ a.day ∧ a.day ≤ Config.maxDay
  kept : a.closedDays.length ≤ Config.closedDayPlaces
  consecutive : (a.closedDays.map ClosedDay.day).IsChain fun x y => y = x + 1
  newest : ∀ r, a.closedDays.getLast? = some r → r.day + 1 = a.day ∨ (a.day = Config.maxDay ∧ r.day = Config.maxDay)

theorem booksOk_start : BooksOk .start where
  opened _ := rfl
  frozen _ _ _ h := by cases h
  window := by decide
  day := by decide
  kept := by decide
  consecutive := .nil
  newest _ h := by cases h

theorem BooksOk.merged {a : Accounts} (h : BooksOk a) : BooksOk a.merged :=
  { h with opened := fun _ => rfl, frozen := fun _ _ _ hc => by cases hc }

theorem BooksOk.windowed {a : Accounts} (h : BooksOk a) {window : Nat} (hw : 1 ≤ window ∧ window ≤ 255) :
    BooksOk { a with window := window } :=
  { h with window := hw }

theorem BooksOk.closing {a : Accounts} (h : BooksOk a) (p : PortId) (deadline : Nat) :
    BooksOk { a with close := .closing p a.current deadline } :=
  { h with
    opened := fun hc => by cases hc
    frozen := fun _ _ _ hc => by cases hc; rfl }

theorem Accounts.close_report (a : Accounts) (m : Movement) : (a.report m).close = a.close := by
  unfold Accounts.report
  split <;> rfl

theorem BooksOk.report {a : Accounts} (h : BooksOk a) (m : Movement) : BooksOk (a.report m) := by
  unfold Accounts.report
  split
  case h_1 hc => exact { h with frozen := fun _ _ _ hclose => by rw [hc] at hclose; cases hclose }
  case h_2 hc => exact { h with opened := fun hclose => by rw [hc] at hclose; cases hclose }

theorem fileDay_newest (days : List ClosedDay) (r : ClosedDay) : (fileDay days r).getLast? = some r := by
  unfold fileDay
  split
  case isTrue => simp
  case isFalse =>
    split
    case isTrue hlong =>
      cases days with
      | nil => exact absurd (show (8 : Nat) < 1 from hlong) (by decide)
      | cons d rest => simp
    case isFalse => simp

theorem fileDay_length {days : List ClosedDay} (h : days.length ≤ Config.closedDayPlaces) (r : ClosedDay) :
    (fileDay days r).length ≤ Config.closedDayPlaces := by
  unfold fileDay
  split
  case isTrue hlast =>
    have hpos : 1 ≤ days.length := by
      cases days with
      | nil => cases hlast
      | cons => simp
    rw [List.length_append, List.length_dropLast, List.length_singleton]
    omega
  case isFalse =>
    split
    case isTrue =>
      rw [List.length_tail, List.length_append, List.length_singleton]
      omega
    case isFalse hroom => omega

/-- A record filed after its day's predecessor, or in the place of the newest of day 65,535, keeps the days in a row. -/
theorem fileDay_consecutive {days : List ClosedDay} (h : (days.map ClosedDay.day).IsChain fun x y => y = x + 1) {r : ClosedDay}
    (hday : r.day ≤ Config.maxDay)
    (hnewest : ∀ x, days.getLast? = some x → x.day + 1 = r.day ∨ (r.day = Config.maxDay ∧ x.day = Config.maxDay)) :
    ((fileDay days r).map ClosedDay.day).IsChain fun x y => y = x + 1 := by
  unfold fileDay
  split
  case isTrue hlast =>
    obtain ⟨x, hx, hmax⟩ := Option.map_eq_some_iff.mp hlast
    have hsame : r.day = x.day := by
      rcases hnewest x hx with hnext | ⟨hr, -⟩ <;> omega
    have hdays := List.dropLast_append_getLast? x hx
    rw [← hdays, List.map_append, List.map_singleton] at h
    rw [List.map_append, List.map_singleton, hsame]
    exact h
  case isFalse hlast =>
    have appended : ((days ++ [r]).map ClosedDay.day).IsChain fun x y => y = x + 1 := by
      rw [List.map_append]
      refine h.append (.singleton _) fun x hx y hy => ?_
      rw [List.getLast?_map] at hx
      obtain ⟨d, hd, rfl⟩ := Option.map_eq_some_iff.mp hx
      obtain rfl := Option.some.inj hy
      rcases hnewest d hd with hnext | ⟨-, hmax⟩
      · exact hnext.symm
      · exact absurd (by rw [hd, Option.map_some, hmax]) hlast
    split
    case isTrue =>
      rw [List.map_tail]
      exact appended.tail
    case isFalse => exact appended

theorem BooksOk.confirmed {a : Accounts} (h : BooksOk a) (p : PortId) (frozen : Figures) (time : Nat) :
    BooksOk (a.confirmed p frozen time) where
  opened _ := rfl
  frozen _ _ _ hc := by cases hc
  window := h.window
  day := by
    change 1 ≤ nextDay a.day ∧ nextDay a.day ≤ Config.maxDay
    have := h.day
    unfold nextDay
    split <;> simp only [Config.maxDay] at * <;> omega
  kept := fileDay_length h.kept _
  consecutive := fileDay_consecutive h.consecutive h.day.2 h.newest
  newest r hr := by
    have hlast := (fileDay_newest a.closedDays ⟨a.day, frozen, p, time⟩).symm.trans hr
    obtain rfl := Option.some.inj hlast
    change a.day + 1 = nextDay a.day ∨ (nextDay a.day = Config.maxDay ∧ a.day = Config.maxDay)
    unfold nextDay
    split
    case isTrue hmax => exact .inr ⟨rfl, hmax⟩
    case isFalse => exact .inl rfl

/-! ### The standing of the ports -/

/-- The laws of the business day that read roles, modes and health: some port is OFFICE, no OFFICE port is in TRIAL, and the
owner of a pending close is OFFICE and not in OFF. -/
structure StandingOk (s : State) : Prop where
  office : ∃ p, (s.port p).role = .office
  normal : ∀ p, (s.port p).role = .office → (s.port p).mode = .normal
  owner : ∀ p frozen deadline, s.accounts.close = .closing p frozen deadline →
    (s.port p).role = .office ∧ (s.port p).health ≠ .off

/-- The window deadline of a pending close is ahead. -/
def DeadlineAhead (s : State) : Prop :=
  ∀ owner frozen deadline, s.accounts.close = .closing owner frozen deadline → s.clock.time < deadline

/-- The laws of clock, accounts and standing, all but the deadline of a pending close. -/
structure Undated (s : State) : Prop where
  clock : ClockOk s
  books : BooksOk s.accounts
  standing : StandingOk s

/-- The laws of the clock and of the business day. -/
structure Calendar (s : State) : Prop extends Undated s where
  ahead : DeadlineAhead s

theorem calendar_iff (s : State) : Calendar s ↔ ClockOk s ∧ DayOk s := by
  constructor
  · intro h
    obtain ⟨⟨clock, books, standing⟩, ahead⟩ := h
    refine ⟨clock, books.opened, fun owner frozen deadline hc => ?_, books.window, books.day, books.kept, books.consecutive,
      books.newest, standing.office, standing.normal⟩
    obtain ⟨hrole, hhealth⟩ := standing.owner owner frozen deadline hc
    exact ⟨books.frozen owner frozen deadline hc, hrole, hhealth, ahead owner frozen deadline hc⟩
  · rintro ⟨clock, day⟩
    exact ⟨⟨clock, ⟨day.opened, fun o f d hc => (day.closing o f d hc).1, day.window, day.day, day.kept, day.consecutive,
      day.newest⟩, ⟨day.office, day.normal, fun o f d hc => ⟨(day.closing o f d hc).2.1, (day.closing o f d hc).2.2.1⟩⟩⟩,
      fun o f d hc => (day.closing o f d hc).2.2.2⟩

theorem ClockOk.of_clock {s w : State} (h : ClockOk s) (hclock : w.clock = s.clock) : ClockOk w :=
  ⟨by rw [hclock]; exact h.time, by rw [hclock]; exact h.divisor, by rw [hclock]; exact h.ticking,
    by rw [hclock]; exact h.divided⟩

/-- Of each port, role and mode are those of the first state, and no port has entered OFF. -/
def SameStanding (s w : State) : Prop :=
  ∀ p, (w.port p).role = (s.port p).role ∧ (w.port p).mode = (s.port p).mode ∧
    ((s.port p).health ≠ .off → (w.port p).health ≠ .off)

theorem SameStanding.refl (s : State) : SameStanding s s :=
  fun _ => ⟨rfl, rfl, id⟩

/-- Clock, books and standing kept, with the close kept or dropped. -/
theorem Calendar.follow {s w : State} (h : Calendar s) (hclock : w.clock = s.clock) (hbooks : BooksOk w.accounts)
    (hclose : w.accounts.close = s.accounts.close ∨ w.accounts.close = .opened) (hstanding : StandingOk w) :
    Calendar w := by
  refine ⟨⟨h.clock.of_clock hclock, hbooks, hstanding⟩, fun o f d hc => ?_⟩
  rcases hclose with hkept | hopened
  · rw [hclock]
    exact h.ahead o f d (hkept ▸ hc)
  · rw [hopened] at hc
    cases hc

theorem StandingOk.of_same {s w : State} (h : StandingOk s) (hports : SameStanding s w)
    (hclose : w.accounts.close = s.accounts.close ∨ w.accounts.close = .opened) : StandingOk w where
  office := h.office.imp fun p hp => (hports p).1.trans hp
  normal p hp := (hports p).2.1.trans (h.normal p ((hports p).1.symm.trans hp))
  owner p f d hc := by
    rcases hclose with hkept | hopened
    · obtain ⟨hrole, hhealth⟩ := h.owner p f d (hkept ▸ hc)
      exact ⟨(hports p).1.trans hrole, (hports p).2.2 hhealth⟩
    · rw [hopened] at hc
      cases hc

theorem Calendar.of_same {s w : State} (h : Calendar s) (hports : SameStanding s w) (hclock : w.clock = s.clock)
    (haccounts : w.accounts = s.accounts) : Calendar w :=
  h.follow hclock (haccounts ▸ h.books) (.inl (congrArg _ haccounts)) (h.standing.of_same hports (.inl (congrArg _ haccounts)))

theorem Calendar.merged {s : State} (h : Calendar s) : Calendar { s with accounts := s.accounts.merged } :=
  h.follow rfl h.books.merged (.inr rfl) (h.standing.of_same (.refl _) (.inr rfl))

theorem Calendar.report {s : State} (h : Calendar s) (ref : CardRef) (m : Movement) : Calendar (s.report ref m) := by
  cases ref with
  | trial => exact h
  | real =>
    have hclose := s.accounts.close_report m
    exact h.follow rfl (h.books.report m) (.inl hclose) (h.standing.of_same (.refl _) (.inl hclose))

/-- A write of a port's record that keeps role and mode, and does not enter OFF. -/
theorem Calendar.modifyPort {s : State} (h : Calendar s) (p : PortId) {f : Port → Port}
    (hf : (f (s.port p)).role = (s.port p).role ∧ (f (s.port p)).mode = (s.port p).mode ∧
      ((s.port p).health ≠ .off → (f (s.port p)).health ≠ .off)) : Calendar (s.modifyPort p f) :=
  h.of_same (fun q => by
    rw [State.port_modifyPort]
    split
    case isTrue heq => exact heq ▸ hf
    case isFalse => exact ⟨rfl, rfl, id⟩) rfl rfl

theorem Calendar.notify {s : State} (h : Calendar s) (p : PortId) (n : Notice) : Calendar (s.notify p n) :=
  h.modifyPort p ⟨rfl, rfl, id⟩

theorem Calendar.dropClose {s : State} (h : Calendar s) (cause : Option DropCause) : Calendar (s.dropClose cause) := by
  unfold State.dropClose
  split
  case h_1 => exact h
  case h_2 =>
    split
    case h_1 => exact h.merged
    case h_2 => exact h.merged.notify _ _

theorem Calendar.dropCloseOf {s : State} (h : Calendar s) (p : PortId) (cause : DropCause) : Calendar (s.dropCloseOf p cause) := by
  unfold State.dropCloseOf
  split
  case isTrue => exact h.dropClose _
  case isFalse => exact h

theorem Calendar.showDrop {s : State} (before : State) (h : Calendar s) : Calendar (before.showDrop s) := by
  unfold State.showDrop
  split
  case isTrue => exact h.of_same (.refl _) rfl rfl
  case isFalse => exact h

/-- The window comparison drops a close whose deadline is not ahead (R132). -/
theorem Undated.windowCheck {s : State} (h : Undated s) : Calendar s.windowCheck := by
  have merged : Calendar { s with accounts := s.accounts.merged } :=
    ⟨⟨h.clock.of_clock rfl, h.books.merged, h.standing.of_same (.refl _) (.inr rfl)⟩, fun _ _ _ hc => by cases hc⟩
  unfold State.windowCheck
  split
  case h_1 hopened => exact ⟨h, fun _ _ _ hc => by rw [hopened] at hc; cases hc⟩
  case h_2 owner frozen deadline hclosing =>
    split
    case isTrue =>
      rw [State.dropClose_closing hclosing]
      exact (merged.notify owner _).showDrop s
    case isFalse hahead =>
      refine ⟨h, fun _ _ _ hc => ?_⟩
      rw [hclosing] at hc
      cases hc
      exact not_le.mp hahead

/-! ### Health of a port -/

theorem Calendar.setCount {s : State} (h : Calendar s) (p : PortId) (count : Nat) (cause : HealthCause) :
    Calendar (s.setCount p count cause) := by
  rw [State.setCount_eq]
  exact h.modifyPort p ⟨rfl, rfl, fun _ => healthOfCount_ne_off count⟩

theorem Calendar.makeActive {s : State} (h : Calendar s) (p : PortId) (cause : HealthCause) :
    Calendar (s.makeActive p cause) := by
  rw [State.makeActive_eq]
  exact h.modifyPort p ⟨rfl, rfl, fun _ hoff => by cases hoff⟩

theorem Calendar.discardInFlight {s : State} (h : Calendar s) (p : PortId) : Calendar (s.discardInFlight p) :=
  h.of_same (.refl _) rfl rfl

/-- The close of a port that enters OFF or becomes TILL is dropped: what is left stands if it stood but for that port. -/
theorem Calendar.dropped {s t : State} (h : Calendar s) (p : PortId) (cause : DropCause) (hclock : t.clock = s.clock)
    (haccounts : t.accounts = s.accounts) (hoffice : ∃ q, (t.port q).role = .office)
    (hnormal : ∀ q, (t.port q).role = .office → (t.port q).mode = .normal)
    (hothers : ∀ q, q ≠ p → (t.port q).role = (s.port q).role ∧ ((s.port q).health ≠ .off → (t.port q).health ≠ .off)) :
    Calendar (t.dropCloseOf p cause) := by
  unfold State.dropCloseOf
  split
  case isTrue howner =>
    obtain ⟨frozen, deadline, hclosing⟩ := CloseState.owner?_eq_some.mp howner
    rw [State.dropClose_closing hclosing]
    have merged : Calendar { t with accounts := t.accounts.merged } :=
      h.follow hclock (haccounts ▸ h.books.merged) (.inr rfl) ⟨hoffice, hnormal, fun _ _ _ hc => by cases hc⟩
    exact merged.notify p _
  case isFalse hnot =>
    refine h.follow hclock (haccounts ▸ h.books) (.inl (congrArg _ haccounts)) ⟨hoffice, hnormal, fun q f d hc => ?_⟩
    have hq : q ≠ p := fun heq => hnot (CloseState.owner?_eq_some.mpr ⟨f, d, heq ▸ hc⟩)
    obtain ⟨hrole, hhealth⟩ := h.standing.owner q f d (haccounts ▸ hc)
    exact ⟨(hothers q hq).1.trans hrole, (hothers q hq).2 hhealth⟩

theorem Calendar.enterOff {s : State} (h : Calendar s) (p : PortId) : Calendar (s.enterOff p) := by
  rw [State.enterOff_eq]
  refine Calendar.showDrop _ ?_
  generalize hn : Notice.portState p (s.port p).health .off 255 .errors = n
  have hport : ∀ q, (((s.cutOff p).notifyOff p n).port q).role = (s.port q).role ∧
      (((s.cutOff p).notifyOff p n).port q).mode = (s.port q).mode ∧
      (q ≠ p → (((s.cutOff p).notifyOff p n).port q).health = (s.port q).health) := by
    intro q
    have hcut : (s.cutOff p).port q = if p = q then { s.port p with
        errorCount := 255, health := .off, idleRun := 0, requests := [], answers := [] } else s.port q :=
      s.port_modifyPort p q fun port =>
        { port with errorCount := 255, health := .off, idleRun := 0, requests := [], answers := [] }
    have same : ((s.cutOff p).port q).role = (s.port q).role ∧ ((s.cutOff p).port q).mode = (s.port q).mode ∧
        (q ≠ p → ((s.cutOff p).port q).health = (s.port q).health) := by
      rw [hcut]
      split
      case isTrue heq => exact heq ▸ ⟨rfl, rfl, fun hne => absurd rfl hne⟩
      case isFalse => exact ⟨rfl, rfl, fun _ => rfl⟩
    rw [State.port_notifyOff]
    split
    case isTrue => exact same
    case isFalse => exact same
  have hrest := State.notifyOff_rest (s.cutOff p) p n
  refine h.dropped p .portOff ?_ ?_ ?_ ?_ ?_
  · rw [hrest]
    rfl
  · rw [hrest]
    rfl
  · exact h.standing.office.imp fun q hq => (hport q).1.trans hq
  · intro q hq
    exact (hport q).2.1.trans (h.standing.normal q ((hport q).1.symm.trans hq))
  · intro q hq
    exact ⟨(hport q).1, fun hon => (hport q).2.2 hq ▸ hon⟩

theorem Calendar.raiseCount {s : State} (h : Calendar s) (p : PortId) (k : Nat) : Calendar (s.raiseCount p k) := by
  unfold State.raiseCount
  split
  case isTrue => exact h
  case isFalse =>
    split
    case isTrue => exact h.enterOff p
    case isFalse => exact h.setCount p _ _

theorem Calendar.linkError {s : State} (h : Calendar s) (p : PortId) : Calendar (s.linkError p) := by
  unfold State.linkError
  split
  case isTrue => exact h.modifyPort p ⟨rfl, rfl, id⟩
  case isFalse => exact h.raiseCount p 8

theorem Calendar.portReset {s : State} (h : Calendar s) (p : PortId) : Calendar (s.portReset p) :=
  Calendar.dropCloseOf (Calendar.discardInFlight (h.modifyPort p ⟨rfl, rfl, id⟩) p) p _

theorem Calendar.timeOut {s : State} (h : Calendar s) (p : PortId) : Calendar (s.timeOut p) := by
  have errored : Calendar ((s.receiverTo p .hunt).linkError p) := Calendar.linkError (h.modifyPort p ⟨rfl, rfl, id⟩) p
  unfold State.timeOut
  dsimp only
  split
  case h_1 => exact errored
  case h_2 => exact (errored.portReset p).showDrop _

theorem Calendar.gapCheck {s : State} (h : Calendar s) (p : PortId) : Calendar (s.gapCheck p) := by
  unfold State.gapCheck
  split
  case isTrue => exact h.timeOut p
  case isFalse => exact h

/-! ### Frames -/

theorem Calendar.frameComplete {s : State} (h : Calendar s) (p : PortId) (body : List Byte) (high low : Byte) :
    Calendar (s.frameComplete p body high low) := by
  unfold State.frameComplete
  split
  case isFalse => exact h.linkError p
  case isTrue =>
    split
    case isTrue =>
      unfold State.frameInOff
      split
      case isTrue =>
        split
        case isTrue => exact h.makeActive p _
        case isFalse => exact h.modifyPort p ⟨rfl, rfl, id⟩
      case isFalse => exact h.modifyPort p ⟨rfl, rfl, id⟩
    case isFalse =>
      unfold State.frameJudged
      split
      case h_1 => exact h.setCount p _ _
      case h_2 =>
        unfold State.refuseAtArrival
        split
        case isTrue => exact h.raiseCount p 1
        case isFalse => exact Calendar.raiseCount (h.modifyPort p ⟨rfl, rfl, id⟩) p 1
      case h_3 =>
        unfold State.intake
        split
        case isTrue =>
          split
          case isTrue => exact h
          case isFalse => exact h.modifyPort p ⟨rfl, rfl, id⟩
        case isFalse => exact Calendar.setCount (h.modifyPort p ⟨rfl, rfl, id⟩) p _ _

theorem Calendar.receiverTo {s : State} (h : Calendar s) (p : PortId) (r : Receiver) : Calendar (s.receiverTo p r) :=
  h.modifyPort p ⟨rfl, rfl, id⟩

theorem Calendar.receiveByte {s : State} (h : Calendar s) (p : PortId) (b : Byte) : Calendar (s.receiveByte p b) := by
  unfold State.receiveByte
  split
  case isTrue => exact h
  case isFalse =>
    split
    case h_1 =>
      split
      case isTrue => exact h.receiverTo p _
      case isFalse => exact h
    case h_2 =>
      split
      case isTrue => exact h.receiverTo p _
      case isFalse => exact (h.receiverTo p _).linkError p
    case h_3 => split <;> exact h.receiverTo p _
    case h_4 => exact h.receiverTo p _
    case h_5 => exact (h.receiverTo p _).frameComplete p _ _ _

/-! ### The works of requests -/

theorem storesKept_calendar : StoresKept Calendar where
  card _ ref _ h := h.of_same (by cases ref <;> exact .refl _) (by cases ref <;> rfl) (by cases ref <;> rfl)
  hold _ _ _ h := h.of_same (.refl _) rfl rfl
  lists _ _ _ h := h.of_same (.refl _) rfl rfl
  count _ _ _ h := h.of_same (.refl _) rfl rfl
  report _ ref m h := h.report ref m
  trials _ _ h := h.of_same (.refl _) rfl rfl

theorem sweepsKept_calendar : SweepsKept Calendar fun _ => True :=
  sweepsKept_of_writes (fun _ p n h => h.notify p n) (fun _ _ _ h => h.of_same (.refl _) rfl rfl) storesKept_calendar _

theorem storesKept_ports (ports : Vector Port 6) : StoresKept fun w => w.ports = ports where
  card _ ref _ h := by cases ref <;> exact h
  hold _ _ _ h := h
  lists _ _ _ h := h
  count _ _ _ h := h
  report _ ref _ h := by cases ref <;> exact h
  trials _ _ h := h

/-- SET-PORT keeps an OFFICE port, lets none be in TRIAL, and drops the close of a port it makes TILL (R131, R159). -/
theorem Calendar.setPortMode {s : State} (h : Calendar s) (target : PortId) (role : Role) (mode : Mode) :
    Calendar (setPortMode target role mode s).state := by
  unfold Machine.setPortMode
  split
  case isTrue => exact h
  case isFalse htrial =>
    split
    case isTrue => exact h
    case isFalse hlast =>
      have hport : ∀ q, (s.left target mode).port q = s.port q := fun q => by
        have : (s.left target mode).ports = s.ports := by
          unfold State.left
          split
          case isTrue => exact (storesKept_ports s.ports).leaveTrial s target rfl
          case isFalse => rfl
        rw [State.port, this, State.port]
      have left : Calendar (s.left target mode) := by
        unfold State.left
        split
        case isTrue => exact storesKept_calendar.leaveTrial s target h
        case isFalse => exact h
      have written : ∀ q, ((s.left target mode).writeRole target role mode).port q =
          if target = q then { s.port target with role := role, mode := mode } else s.port q := fun q => by
        rw [State.writeRole, State.port_modifyPort, hport, hport]
      have hnormal : ∀ q, (((s.left target mode).writeRole target role mode).port q).role = .office →
          (((s.left target mode).writeRole target role mode).port q).mode = .normal := by
        intro q hq
        rw [written] at hq ⊢
        split at hq
        case isTrue heq =>
          rw [if_pos heq]
          cases mode with
          | normal => rfl
          | trial => exact absurd ⟨hq, rfl⟩ htrial
        case isFalse hne =>
          rw [if_neg hne]
          exact h.standing.normal q hq
      have hothers : ∀ q, q ≠ target → ((s.left target mode).writeRole target role mode).port q = (s.left target mode).port q :=
        fun q hq => State.port_modifyPort_ne _ (Ne.symm hq) _
      change Calendar (s.writePort target role mode)
      cases role with
      | till =>
        rw [State.writePort_till]
        have hoffice : s.otherOffice target = true := by simpa using hlast
        obtain ⟨q, hq, hrole⟩ := (s.otherOffice_iff target).mp hoffice
        refine left.dropped target .roleChange rfl rfl ⟨q, ?_⟩ hnormal fun q hq => ?_
        · rw [hothers q hq, hport]
          exact hrole
        · rw [hothers q hq]
          exact ⟨rfl, id⟩
      | office =>
        rw [State.writePort_office]
        refine left.follow rfl left.books (.inl rfl) ⟨⟨target, ?_⟩, hnormal, fun q f d hc => ?_⟩
        · rw [written, if_pos rfl]
        · obtain ⟨hrole, hhealth⟩ := left.standing.owner q f d hc
          by_cases hq : q = target
          · subst hq
            rw [written, if_pos rfl]
            rw [hport] at hhealth
            exact ⟨rfl, hhealth⟩
          · rw [hothers q hq]
            exact ⟨hrole, hhealth⟩

theorem Calendar.setLineTiming {s : State} (h : Calendar s) (target : PortId) {timeout : Nat} {recovery : Recovery}
    {window : Nat} {base : TimeBase} {divisor : Nat}
    (hrange : (Request.setTiming target timeout recovery window base divisor).inRange = true) :
    Calendar (setLineTiming target timeout recovery window base divisor s).state := by
  simp only [Request.inRange, Bool.and_eq_true, decide_eq_true_eq] at hrange
  obtain ⟨⟨⟨-, hlow⟩, hhigh⟩, hdivisor⟩ := hrange
  unfold Machine.setLineTiming
  split
  case isTrue => exact h
  case isFalse hbase =>
    have written : Calendar (s.modifyPort target fun port => { port with timeout := timeout, recovery := recovery }) :=
      h.modifyPort target ⟨rfl, rfl, id⟩
    refine ⟨⟨⟨h.clock.time, hdivisor, fun _ => rfl, fun hdivided => ?_⟩, h.books.windowed ⟨hlow, hhigh⟩,
      written.standing.of_same (.refl _) (.inl rfl)⟩, written.ahead⟩
    exact Nat.pos_of_ne_zero fun hzero => hbase ⟨hdivided, hzero⟩

theorem Calendar.confirmPending {s : State} (h : Calendar s) (p : PortId) : Calendar (confirmPending p s).state := by
  unfold Machine.confirmPending
  split
  case h_1 => exact h
  case h_2 =>
    split
    case isTrue =>
      exact h.follow rfl (h.books.confirmed p _ _) (.inr rfl) (h.standing.of_same (.refl _) (.inr rfl))
    case isFalse => exact h

/-- The work of every request but SET-TIME and CLOSE-DAY keeps the laws of the clock and of the day. -/
theorem Calendar.work {s : State} (h : Calendar s) {r : Request} (hr : r.inRange = true) (p : PortId)
    (htime : r.kind ≠ .setTime) (hclose : r.kind ≠ .closeDay) : Calendar (r.work p s).state := by
  refine work_keeps storesKept_calendar sweepsKept_calendar trivial h fun hsetting => ?_
  cases r
  case setSeries => exact writeSeries_keeps h fun _ _ => h.of_same (.refl _) rfl rfl
  case setTime => exact absurd rfl htime
  case closeDay => exact absurd rfl hclose
  case confirmClose => exact h.confirmPending p
  case setPort => exact h.setPortMode _ _ _
  case setTiming => exact h.setLineTiming _ hr
  case restorePort target => exact h.makeActive target .restore
  all_goals exact absurd hsetting (by simp [settingKinds, Request.kind])

theorem Calendar.writeTime {s : State} (h : Calendar s) {t : Nat} (ht : t ≤ Config.maxTime) :
    Undated (writeTime t s).state := by
  refine ⟨⟨ht, h.clock.divisor, fun _ => rfl, fun hdivided => ?_⟩, h.books, h.standing.of_same (.refl _) (.inl rfl)⟩
  exact (Nat.zero_le _).trans_lt (h.clock.divided hdivided)

theorem Calendar.openClose {s : State} (h : Calendar s) {p : PortId} (hrole : (s.port p).role = .office)
    (hon : (s.port p).health ≠ .off) :
    Undated (openClose p s).state ∧ ((openClose p s).tail = .window ∨ DeadlineAhead (openClose p s).state) := by
  unfold Machine.openClose
  split
  case h_1 => exact ⟨h.toUndated, .inr h.ahead⟩
  case h_2 =>
    refine ⟨⟨h.clock.of_clock rfl, h.books.closing p _, h.standing.office, h.standing.normal, fun q f d hc => ?_⟩, .inl rfl⟩
    cases hc
    exact ⟨hrole, hon⟩

/-- The work of a permitted request of a port below OFF: the deadline stays ahead, or the window comparison follows. -/
theorem Calendar.permittedWork {s : State} (h : Calendar s) {p : PortId} {r : Request} (hr : r.inRange = true)
    (hpermitted : r.permitted (s.port p).role p = true) (hon : (s.port p).health ≠ .off) :
    Undated (r.work p s).state ∧ ((r.work p s).tail = .window ∨ DeadlineAhead (r.work p s).state) := by
  by_cases htime : r.kind = .setTime
  · cases r
    case setTime t => exact ⟨h.writeTime (decide_eq_true_iff.mp hr), .inl rfl⟩
    all_goals cases htime
  · by_cases hclose : r.kind = .closeDay
    · cases r
      case closeDay => exact h.openClose (by simpa [Request.permitted, Request.kind, Kind.permitted] using hpermitted) hon
      all_goals cases hclose
    · have kept := h.work hr p htime hclose
      exact ⟨kept.toUndated, .inr kept.ahead⟩

theorem Undated.finish {s : State} (h : Undated s) {tail : Tail} (htail : tail = .window ∨ DeadlineAhead s) :
    Calendar (s.finish tail) := by
  rcases htail with rfl | hahead
  · exact h.windowCheck
  · have calendar : Calendar s := ⟨h, hahead⟩
    cases tail with
    | nothing => exact calendar
    | window => exact h.windowCheck
    | gap p => exact calendar.gapCheck p
    | reset p => exact calendar.portReset p

theorem Calendar.startGrant {s : State} (h : Calendar s) (p : PortId) (r : Request) : Calendar (s.startGrant p r) := by
  have granted : Calendar { s with lastGranted := (Claimant.port p).position } := h.of_same (.refl _) rfl rfl
  have popped : Calendar (s.popped p) :=
    granted.modifyPort p (f := fun port => { port with requests := port.requests.tail }) ⟨rfl, rfl, id⟩
  have dropped := popped.dropCloseOf p .strayRequest
  unfold State.startGrant
  dsimp only
  split
  case isTrue => exact popped
  case isFalse => exact dropped

theorem Calendar.grantRequest {s : State} (h : Calendar s) (hports : PortsOk s) {p : PortId} {q : QueuedRequest}
    (hnext : s.nextRequest = some (p, q)) : Calendar (s.grantRequest p q (q.request.work p)) := by
  have met := (hports.granting hnext).startGrant q.request
  have started := h.startGrant p q.request
  obtain ⟨-, rest, hrequests⟩ := (s.nextRequest_iff p q).mp hnext
  have hr : q.request.inRange = true := (hports.record p).contents q (hrequests ▸ List.mem_cons_self)
  have answering : ∀ (w : State) f, Undated w → Undated { w with inFlight := f } := fun w f hw =>
    ⟨hw.clock.of_clock rfl, hw.books, hw.standing.of_same (.refl _) (.inl rfl)⟩
  unfold State.grantRequest
  dsimp only
  split
  case isTrue hpermitted =>
    obtain ⟨undated, htail⟩ := started.permittedWork hr hpermitted met.on
    exact (answering _ _ undated).finish htail
  case isFalse => exact (answering _ _ started.toUndated).finish (.inr started.ahead)

/-! ### Every move -/

theorem calendar_reset : Calendar State.reset where
  clock := ⟨by decide, by decide, fun _ => rfl, fun h => by cases h⟩
  books := booksOk_start
  standing := by
    refine ⟨⟨0, rfl⟩, fun p _ => ?_, fun _ _ _ hc => by cases hc⟩
    rw [State.port_reset]
    rfl
  ahead _ _ _ hc := by cases hc

theorem Calendar.resetLine {s : State} (h : Calendar s) : Calendar s.resetLine := by
  have hclock : s.resetLine.clock = s.clock := by
    change (s.dropClose none).clock = s.clock
    rw [dropClose_none]
  refine h.follow hclock (h.dropClose none).books (.inr s.close_resetLine) ⟨?_, fun p _ => ?_, fun p f d hc => ?_⟩
  · refine h.standing.office.imp fun p hp => ?_
    rw [State.port_resetLine]
    exact hp
  · rw [State.port_resetLine]
    rfl
  · rw [s.close_resetLine] at hc
    cases hc

theorem Calendar.resetRelease {s : State} (h : Calendar s) (rate : LineRate) : Calendar (s.resetRelease rate) :=
  h.of_same (fun p => by
    rw [State.port_resetRelease]
    exact ⟨rfl, rfl, id⟩) rfl rfl

/-- A write of the divider within its range. -/
theorem Calendar.withDivider {s : State} (h : Calendar s) {n : Nat} (htick : s.clock.base = .tick → n = 0)
    (hdivided : s.clock.base = .divided → n < s.clock.divisor) :
    Calendar { s with clock := { s.clock with divider := n } } :=
  ⟨⟨⟨h.clock.time, h.clock.divisor, htick, hdivided⟩, h.books, h.standing.of_same (.refl _) (.inl rfl)⟩, h.ahead⟩

theorem Calendar.restartDivider {s : State} (h : Calendar s) : Calendar s.restartDivider :=
  h.withDivider (fun _ => rfl) fun hdivided => (Nat.zero_le _).trans_lt (h.clock.divided hdivided)

theorem Calendar.secondEvent {s : State} (h : Calendar s) : Calendar s.secondEvent := by
  refine Undated.windowCheck ⟨⟨?_, h.clock.divisor, h.clock.ticking, h.clock.divided⟩, h.books,
    h.standing.of_same (.refl _) (.inl rfl)⟩
  change (if s.clock.time < Config.maxTime then s.clock.time + 1 else s.clock.time) ≤ Config.maxTime
  split
  case isTrue hroom => exact hroom
  case isFalse => exact h.clock.time

theorem Calendar.moves {s t : State} (h : Calendar s) (hports : PortsOk s) (hmove : Moves s t) : Calendar t := by
  cases hmove
  case stays => exact h
  case powerOn => exact calendar_reset.of_same (.refl _) rfl rfl
  case resetFalls => exact h.resetLine
  case resetRises rate _ => exact h.resetRelease rate
  case tick => exact h.secondEvent
  case counted hbase ahead => exact h.withDivider (fun htick => by rw [hbase] at htick; cases htick) fun _ => ahead
  case divided => exact h.restartDivider.secondEvent
  case window => exact h.windowCheck
  case lapse i rest turn head =>
    have granted : Calendar (s.grantTo .expiry) := h.of_same (.refl _) rfl rfl
    exact (storesKept_calendar.note _ _ _ _ _ (storesKept_calendar.freeHold _ i granted)).notify _ _
  case searched u start stop critA critB limit skip turn params =>
    exact sweepsKept_calendar.searchStep _ u _ _ _ _ _ _ (h.of_same (.refl _) rfl rfl) params
  case tallied u start stop turn params =>
    exact sweepsKept_calendar.tallyStep _ u _ _ (h.of_same (.refl _) rfl rfl) params
  case purged u owner till turn params =>
    exact sweepsKept_calendar.purgeStep _ u _ _ (h.of_same (.refl _) rfl rfl) params
  case issued u start stop stride value turn params =>
    exact sweepsKept_calendar.issueRunStep _ u _ _ _ _ (h.of_same (.refl _) rfl rfl) params
  case discarded => exact h.of_same (.refl _) rfl rfl
  case completed f flight kept =>
    exact Calendar.modifyPort (h.of_same (w := { s with inFlight := none }) (.refl _) rfl rfl) f.port ⟨rfl, rfl, id⟩
  case byte p b => exact h.receiveByte p b
  case gap p gap => exact Calendar.gapCheck (h.modifyPort p ⟨rfl, rfl, id⟩) p
  case sending p bytes a rest answers => exact h.modifyPort p ⟨rfl, rfl, id⟩
  case sent p => exact h.modifyPort p ⟨rfl, rfl, id⟩
  case answered p q rest notices a head fewer => exact h.modifyPort p ⟨rfl, rfl, id⟩
  case granted p q next => exact h.grantRequest hports next

/-- Settles O55: every move keeps clock, books and standing, and the window comparison follows each write of device time and
each opening of a close. -/
theorem stepKeepsTheDay : Obligations.StepKeepsTheDay := by
  intro s t hports hclock hday hstep
  obtain ⟨queue, hmove⟩ := moves_of_step hstep
  have front : Calendar { s with pending := queue } :=
    ((calendar_iff s).mpr ⟨hclock, hday⟩).of_same (.refl _) rfl rfl
  have frontPorts : PortsOk { s with pending := queue } := hports.of_same ((SameQueues.refl s).of_ports rfl rfl)
  exact (calendar_iff t).mp (front.moves frontPorts hmove)

end Sys2Proof.Machine
end

section
/-! PROOFS. The laws of the hold pool in parts: the two lists, each card, the open-hold counts, and the sweeps; and what a
single write of a card or of a hold leaves of them. -/

namespace Sys2Proof.Machine

/-! ### The two lists -/

/-- The lists of the pool against the hold records: every record below the last index FREE and in the free list, or OPEN and
in the expiry list, which is in deadline order (R41, R43). -/
structure PoolLists (hold : Nat → Hold) (freeList expiryList : List Nat) : Prop
    extends ListsSound hold freeList expiryList where
  below : ∀ i ∈ freeList, i < Config.holdRecords
  allFree : ∀ i, i < Config.holdRecords → (hold i).isOpen = false → i ∈ freeList
  inPool : ∀ i, (hold i).isOpen = true → i < Config.holdRecords
  allOpen : ∀ i, (hold i).isOpen = true → i ∈ expiryList
  order : (expiryList.map fun i => (hold i).deadline).Pairwise (· ≤ ·)

theorem OneHold.map_deadline {s w : State} {i : Nat} {k : Hold} (one : OneHold s w i k) {l : List Nat} (hi : i ∉ l) :
    (l.map fun j => (w.hold j).deadline) = l.map fun j => (s.hold j).deadline :=
  List.map_congr_left fun j hj => congrArg Hold.deadline (one.others j fun e => hi (e ▸ hj))

/-- A hold entered in the expiry list by its deadline leaves the list in deadline order (R43). -/
theorem OneHold.enterExpiry_sorted {s w : State} {i : Nat} {k : Hold} (one : OneHold s w i k) {l : List Nat} (hi : i ∉ l)
    (hl : (l.map fun j => (s.hold j).deadline).Pairwise (· ≤ ·)) :
    ((enterExpiry (fun j => (s.hold j).deadline) i k.deadline l).map fun j => (w.hold j).deadline).Pairwise (· ≤ ·) := by
  obtain ⟨front, rear, rfl, hafter, hfront, hrear⟩ := enteredAt_enterExpiry (fun j => (s.hold j).deadline) i k.deadline l
  rw [hafter, List.map_append, List.map_cons, one.written,
    one.map_deadline fun h => hi (List.mem_append_left rear h), one.map_deadline fun h => hi (List.mem_append_right front h)]
  rw [List.map_append, List.pairwise_append] at hl
  obtain ⟨hsorted, hrest, hcross⟩ := hl
  have hlater : ∀ d ∈ rear.map fun j => (s.hold j).deadline, k.deadline ≤ d := by
    cases rear with
    | nil => simp
    | cons j rest =>
      have hj : k.deadline ≤ (s.hold j).deadline := (hrear j rfl).le
      rw [List.map_cons, List.pairwise_cons] at hrest
      intro d hd
      rcases List.mem_cons.mp hd with rfl | hd
      · exact hj
      · exact hj.trans (hrest.1 d hd)
  refine List.pairwise_append.mpr ⟨hsorted, List.pairwise_cons.mpr ⟨hlater, hrest⟩, fun a ha b hb => ?_⟩
  rcases List.mem_cons.mp hb with rfl | hb
  · obtain ⟨j, hj, rfl⟩ := List.mem_map.mp ha
    exact hfront j hj
  · exact hcross a ha b hb

theorem PoolLists.freed {s w : State} {i : Nat} {k : Hold} {free expiry : List Nat} (h : PoolLists s.hold free expiry)
    (hopen : (s.hold i).isOpen = true) (one : OneHold s w i k) (hk : k.isOpen = false) :
    PoolLists w.hold (free ++ [i]) (expiry.erase i) where
  toListsSound := h.toListsSound.freed hopen one hk
  below j hj := by
    rcases List.mem_append.mp hj with hold | hnew
    · exact h.below j hold
    · exact List.mem_singleton.mp hnew ▸ h.inPool i hopen
  allFree j hj hclosed := by
    by_cases hji : j = i
    · simp [hji]
    · rw [one.others j hji] at hclosed
      exact List.mem_append_left _ (h.allFree j hj hclosed)
  inPool j hj := by
    by_cases hji : j = i
    · exact hji ▸ h.inPool i hopen
    · exact h.inPool j (one.others j hji ▸ hj)
  allOpen j hj := by
    by_cases hji : j = i
    · rw [hji, one.written, hk] at hj
      cases hj
    · exact (List.mem_erase_of_ne hji).mpr (h.allOpen j (one.others j hji ▸ hj))
  order := by
    rw [one.map_deadline h.expiryOnce.not_mem_erase]
    exact h.order.sublist (List.erase_sublist.map _)

theorem PoolLists.opened {s w : State} {i : Nat} {k : Hold} {rest expiry : List Nat}
    (h : PoolLists s.hold (i :: rest) expiry) (one : OneHold s w i k) (hk : k.isOpen = true) :
    PoolLists w.hold rest (enterExpiry (fun j => (s.hold j).deadline) i k.deadline expiry) where
  toListsSound := h.toListsSound.opened one hk _ _
  below j hj := h.below j (List.mem_cons_of_mem i hj)
  allFree j hj hclosed := by
    have hji : j ≠ i := by
      rintro rfl
      rw [one.written, hk] at hclosed
      cases hclosed
    rw [one.others j hji] at hclosed
    exact (List.mem_cons.mp (h.allFree j hj hclosed)).resolve_left hji
  inPool j hj := by
    by_cases hji : j = i
    · exact hji ▸ h.below i List.mem_cons_self
    · exact h.inPool j (one.others j hji ▸ hj)
  allOpen j hj := by
    refine (enterExpiry_perm _ i _ expiry).mem_iff.mpr ?_
    by_cases hji : j = i
    · exact hji ▸ List.mem_cons_self
    · exact List.mem_cons_of_mem i (h.allOpen j (one.others j hji ▸ hj))
  order := one.enterExpiry_sorted (fun hmem => by
    have hopen := h.expires i hmem
    rw [h.free i List.mem_cons_self] at hopen
    cases hopen) h.order

theorem PoolLists.renewed {s w : State} {i : Nat} {k : Hold} {free expiry : List Nat} (h : PoolLists s.hold free expiry)
    (hopen : (s.hold i).isOpen = true) (one : OneHold s w i k) (hk : k.isOpen = (s.hold i).isOpen) :
    PoolLists w.hold free (enterExpiry (fun j => (s.hold j).deadline) i k.deadline (expiry.erase i)) := by
  have same := one.same_field Hold.isOpen hk
  have hout : i ∉ expiry.erase i := h.expiryOnce.not_mem_erase
  exact {
    toListsSound := h.toListsSound.renewed same hopen _ _
    below := h.below
    allFree := fun j hj hclosed => h.allFree j hj ((same j).symm.trans hclosed)
    inPool := fun j hj => h.inPool j ((same j).symm.trans hj)
    allOpen := fun j hj => (enterExpiry_perm _ i _ _).mem_iff.mpr
      ((List.perm_cons_erase (h.allOpen i hopen)).mem_iff.mp (h.allOpen j ((same j).symm.trans hj)))
    order := one.enterExpiry_sorted hout (h.order.sublist (List.erase_sublist.map _)) }

/-! ### Each card -/

/-- A card against the hold records, and in its ranges (R16, R20, R38, R42, R140). -/
structure CardKept (hold : Nat → Hold) (ref : CardRef) (c : Card) : Prop extends CardSound hold ref c where
  chainLength : c.chain.length ≤ Config.chainLimit
  bounded : c.value ≤ ref.highest
  empty : ref.isTrial = false → c.state = .blank ∨ c.state = .retired → c.value = 0 ∧ c.chain = []
  trialActive : ref.isTrial = true → c.state = .active

/-- A write that leaves the holds and the state of a card, its new value covering them and in range. -/
theorem CardKept.revalued {hold : Nat → Hold} {ref : CardRef} {c d : Card} (h : CardKept hold ref c)
    (hchain : d.chain = c.chain) (hheld : d.held = c.held) (hstate : d.state = c.state) (hcovered : c.held ≤ d.value)
    (hbounded : d.value ≤ ref.highest) (hempty : ref.isTrial = false → c.state = .blank ∨ c.state = .retired → d.value = 0) :
    CardKept hold ref d where
  toCardSound := h.toCardSound.of_same_holds hchain hheld hcovered fun href hblank => hempty href (.inl (hstate ▸ hblank))
  chainLength := hchain ▸ h.chainLength
  bounded := hbounded
  empty href hgone := ⟨hempty href (hstate ▸ hgone), hchain ▸ (h.empty href (hstate ▸ hgone)).2⟩
  trialActive href := hstate ▸ h.trialActive href

/-- A write of uses and last activity. -/
theorem CardKept.noted {hold : Nat → Hold} {ref : CardRef} {c d : Card} (h : CardKept hold ref c)
    (hchain : d.chain = c.chain) (hheld : d.held = c.held) (hstate : d.state = c.state) (hvalue : d.value = c.value) :
    CardKept hold ref d :=
  h.revalued hchain hheld hstate (hvalue ▸ h.covered) (hvalue ▸ h.bounded) fun href hgone =>
    hvalue ▸ (h.empty href hgone).1

theorem CardKept.of_same_amounts {hold hold' : Nat → Hold} {ref : CardRef} {c : Card} (h : CardKept hold ref c)
    (hopen : ∀ i, (hold' i).isOpen = (hold i).isOpen) (hcard : ∀ i, (hold' i).card = (hold i).card)
    (hamount : ∀ i, (hold' i).amount = (hold i).amount) : CardKept hold' ref c :=
  { h with toCardSound := h.toCardSound.of_same_amounts hopen hcard hamount }

/-- The card of a freed hold. -/
theorem CardKept.freed {s w : State} {i : Nat} {k : Hold} {c : Card} (h : CardKept s.hold (s.hold i).card c)
    (hopen : (s.hold i).isOpen = true) (one : OneHold s w i k) (hk : k.isOpen = false) :
    CardKept w.hold (s.hold i).card { c with chain := c.chain.erase i, held := c.held - (s.hold i).amount } where
  toCardSound := h.toCardSound.freed hopen one hk
  chainLength := List.length_erase_le.trans h.chainLength
  bounded := h.bounded
  empty href hgone := ⟨(h.empty href hgone).1, by rw [(h.empty href hgone).2]; rfl⟩
  trialActive := h.trialActive

/-- The card of an opened hold, ACTIVE and with a place in its chain. -/
theorem CardKept.opened {s w : State} {i : Nat} {k : Hold} {ref : CardRef} {c : Card} (h : CardKept s.hold ref c)
    (hfree : (s.hold i).isOpen = false) (one : OneHold s w i k) (hk : k.isOpen = true) (hcard : k.card = ref)
    (hroom : c.held + k.amount ≤ c.value) (hchain : c.chain.length < Config.chainLimit) (hactive : c.state = .active) :
    CardKept w.hold ref { c with chain := c.chain ++ [i], held := c.held + k.amount } where
  toCardSound := h.toCardSound.opened hfree one hk hcard hroom
  chainLength := by
    rw [List.length_append, List.length_singleton]
    exact hchain
  bounded := h.bounded
  empty _ hgone := by
    rw [hactive] at hgone
    rcases hgone with h | h <;> cases h
  trialActive := h.trialActive

/-- The cards after the write of one hold and its card. -/
theorem cardKept_of_hold_written {s w : State} (h : ∀ ref, CardKept s.hold ref (s.card ref)) {i : Nat} {k : Hold}
    {ref : CardRef} {c : Card} (hold : OneHold s w i k) (card : OneCard s w ref c)
    (hbefore : (s.hold i).isOpen = true → (s.hold i).card = ref) (hafter : k.isOpen = true → k.card = ref)
    (kept : CardKept w.hold ref c) (q : CardRef) : CardKept w.hold q (w.card q) := by
  by_cases hq : q = ref
  · rw [hq, card.written]
    exact kept
  · rw [card.others q hq]
    exact { h q with
      toCardSound := (h q).toCardSound.of_other_hold hold (fun hopen e => hq (e ▸ hbefore hopen)) fun hopen e =>
        hq (e ▸ hafter hopen) }

/-! ### The open-hold counts -/

/-- The open holds that stand in an entry's range. -/
def standing (hold : Nat → Hold) (expiry : List Nat) (f : SeriesFields) : Nat :=
  expiry.countP fun i => (hold i).standsIn f

/-- Every entry's count is that of the open holds in its range, and every open hold of a slot has a governing entry (R13). -/
structure CountsOk (s : State) : Prop where
  governed : ∀ i slot, (s.hold i).isOpen = true → (s.hold i).card = .real slot → (s.governing slot).isSome = true
  counts : ∀ e, (s.entry e).openHolds = if (s.entry e).fields.enabled then standing s.hold s.expiry (s.entry e).fields else 0

theorem State.governing_isSome_iff (s : State) (slot : Nat) : (s.governing slot).isSome = true ↔
    ∃ e, (s.entry e).fields.enabled = true ∧ (s.entry e).fields.covers slot = true := by
  have hmem : ∀ e : EntryId, e ∈ allEntries := by decide
  simp [State.governing, List.find?_isSome, hmem]

theorem SeriesOk.governing_eq_iff {s : State} (h : SeriesOk s) (slot : Nat) (e : EntryId) : s.governing slot = some e ↔
    (s.entry e).fields.enabled = true ∧ (s.entry e).fields.covers slot = true :=
  ⟨fun hg => ((s.governing_iff slot e).mp hg).1, fun ⟨henabled, hcovers⟩ => h.governing_of_covers henabled hcovers⟩

/-- A hold's record stands in the range of the entry whose count it moves. -/
theorem standsIn_of_enabled {s : State} (h : SeriesOk s) {k : Hold} {e : EntryId} (henabled : (s.entry e).fields.enabled = true) :
    k.standsIn (s.entry e).fields = true ↔ ∃ slot, k.card = .real slot ∧ s.governing slot = some e := by
  unfold Hold.standsIn
  split
  case h_1 slot hslot =>
    rw [hslot]
    constructor
    · exact fun hcovers => ⟨slot, rfl, h.governing_of_covers henabled hcovers⟩
    · rintro ⟨_, he, hg⟩
      cases he
      exact ((h.governing_eq_iff slot e).mp hg).2
  case h_2 t ht =>
    rw [ht]
    simp

/-! ### The sweeps -/

/-- Every RUNNING ISSUE-RUN issues a value in range. -/
def IssuesOk (s : State) : Prop :=
  ∀ u start stop stride value, (s.sweep u).running = true → (s.sweep u).params = .issueRun start stop stride value →
    value ≤ Config.maxAmount

theorem IssuesOk.of_same {s w : State} (h : IssuesOk s)
    (hsweeps : ∀ u, (w.sweep u).running = (s.sweep u).running ∧ (w.sweep u).params = (s.sweep u).params) : IssuesOk w :=
  fun u start stop stride value hrunning hparams =>
    h u start stop stride value ((hsweeps u).1 ▸ hrunning) ((hsweeps u).2 ▸ hparams)

theorem DriftsFollow.unit_same {s w : State} {ref : CardRef} (h : DriftsFollow s w ref) (u : UnitId) :
    (w.sweep u).running = (s.sweep u).running ∧ (w.sweep u).params = (s.sweep u).params := by
  rw [h u]
  cases ref with
  | trial t => exact ⟨rfl, rfl⟩
  | real n =>
    obtain ⟨hrunning, hparams, -⟩ := Sweep.drifted_same n (driftOf (s.card (.real n)) (w.card (.real n))) (s.sweep u)
    exact ⟨hrunning, hparams⟩

end Sys2Proof.Machine
end

section
/-! PROOFS. The laws of the pool and of the series table together: what reads them not, the writes of one card, and the
opening, freeing and renewing of a hold. -/

namespace Sys2Proof.Machine

/-! ### Entries after a count moved -/

theorem State.governing_congr {s w : State} (h : ∀ e, (w.entry e).fields = (s.entry e).fields) (slot : Nat) :
    w.governing slot = s.governing slot := by
  simp only [State.governing, h]

theorem CountMoves.fields {s w : State} {ref : CardRef} {f : Nat → Nat} (h : CountMoves s w ref f) (e : EntryId) :
    (w.entry e).fields = (s.entry e).fields := by
  rw [h e]
  cases ref with
  | trial t => rfl
  | real slot =>
    dsimp only
    split <;> rfl

/-- The count of an enabled entry moves when a hold against that card stands in its range, and no other count does. -/
theorem CountMoves.openHolds {s w : State} {ref : CardRef} {f : Nat → Nat} (h : CountMoves s w ref f) (series : SeriesOk s)
    {k : Hold} (hk : k.card = ref) (e : EntryId) : (w.entry e).openHolds =
      if (s.entry e).fields.enabled = true ∧ k.standsIn (s.entry e).fields = true then f (s.entry e).openHolds
      else (s.entry e).openHolds := by
  rw [h e]
  cases ref with
  | trial t =>
    have hout : k.standsIn (s.entry e).fields = false := by simp [Hold.standsIn, hk]
    rw [hout, if_neg (fun h => by cases h.2)]
  | real slot =>
    have hin : k.standsIn (s.entry e).fields = (s.entry e).fields.covers slot := by simp [Hold.standsIn, hk]
    have hiff := series.governing_eq_iff slot e
    rw [hin]
    dsimp only
    by_cases hg : s.governing slot = some e
    · rw [if_pos hg, if_pos (hiff.mp hg)]
    · rw [if_neg hg, if_neg (fun hboth => hg (hiff.mpr hboth))]

theorem standing_perm {hold : Nat → Hold} {l m : List Nat} (h : l.Perm m) (f : SeriesFields) :
    standing hold l f = standing hold m f :=
  h.countP_eq _

theorem standing_cons (hold : Nat → Hold) (i : Nat) (l : List Nat) (f : SeriesFields) :
    standing hold (i :: l) f = standing hold l f + if (hold i).standsIn f = true then 1 else 0 :=
  List.countP_cons

theorem OneHold.standing_eq {s w : State} {i : Nat} {k : Hold} (one : OneHold s w i k) {l : List Nat} (hi : i ∉ l)
    (f : SeriesFields) : standing w.hold l f = standing s.hold l f :=
  List.countP_congr fun j hj => by rw [one.others j fun e => hi (e ▸ hj)]

theorem CountsOk.freed {s w : State} (h : CountsOk s) (series : SeriesOk s) {i : Nat} {k : Hold}
    (lists : PoolLists s.hold s.freeList s.expiry) (hopen : (s.hold i).isOpen = true) (one : OneHold s w i k)
    (hk : k.isOpen = false) (moves : CountMoves s w (s.hold i).card (· - 1)) (hexpiry : w.expiry = s.expiry.erase i) :
    CountsOk w where
  governed j slot hj hcard := by
    have hji : j ≠ i := by
      rintro rfl
      rw [one.written, hk] at hj
      cases hj
    rw [one.others j hji] at hj hcard
    rw [State.governing_congr moves.fields]
    exact h.governed j slot hj hcard
  counts e := by
    have hbefore : standing s.hold s.expiry (s.entry e).fields = standing w.hold (s.expiry.erase i) (s.entry e).fields +
        if (s.hold i).standsIn (s.entry e).fields = true then 1 else 0 := by
      rw [standing_perm (List.perm_cons_erase (lists.allOpen i hopen)), standing_cons,
        one.standing_eq lists.expiryOnce.not_mem_erase]
    have hcount := h.counts e
    rw [moves.openHolds series rfl e, moves.fields e, hexpiry, hcount, hbefore]
    cases (s.entry e).fields.enabled <;> cases (s.hold i).standsIn (s.entry e).fields <;> simp

theorem CountsOk.opened {s w : State} (h : CountsOk s) (series : SeriesOk s) {i : Nat} {k : Hold} {ref : CardRef}
    (hnot : i ∉ s.expiry) (one : OneHold s w i k) (hcard : k.card = ref) (moves : CountMoves s w ref (· + 1))
    (hexpiry : w.expiry.Perm (i :: s.expiry)) (hgoverned : ∀ slot, ref = .real slot → (s.governing slot).isSome = true) :
    CountsOk w where
  governed j slot hj hslot := by
    rw [State.governing_congr moves.fields]
    by_cases hji : j = i
    · rw [hji, one.written, hcard] at hslot
      exact hgoverned slot hslot
    · rw [one.others j hji] at hj hslot
      exact h.governed j slot hj hslot
  counts e := by
    have hafter : standing w.hold w.expiry (s.entry e).fields = standing s.hold s.expiry (s.entry e).fields +
        if k.standsIn (s.entry e).fields = true then 1 else 0 := by
      rw [standing_perm hexpiry, standing_cons, one.standing_eq hnot, one.written]
    have hcount := h.counts e
    rw [moves.openHolds series hcard e, moves.fields e, hafter, hcount]
    cases (s.entry e).fields.enabled <;> cases k.standsIn (s.entry e).fields <;> simp

/-- The counts read of a hold whether it is open and its card, and of the expiry list its members. -/
theorem CountsOk.of_same {s w : State} (h : CountsOk s) (hopen : ∀ i, (w.hold i).isOpen = (s.hold i).isOpen)
    (hcard : ∀ i, (w.hold i).card = (s.hold i).card) (hexpiry : w.expiry.Perm s.expiry) (hseries : w.series = s.series) :
    CountsOk w := by
  have hentry : ∀ e, w.entry e = s.entry e := fun e => by rw [State.entry, hseries, State.entry]
  refine ⟨fun i slot hi hslot => ?_, fun e => ?_⟩
  · rw [State.governing_congr (s := s) (w := w) fun e => by rw [hentry]]
    exact h.governed i slot (hopen i ▸ hi) (hcard i ▸ hslot)
  · have hstands : standing w.hold s.expiry (s.entry e).fields = standing s.hold s.expiry (s.entry e).fields :=
      List.countP_congr fun i _ => by rw [Hold.standsIn, Hold.standsIn, hcard]
    rw [hentry, standing_perm hexpiry, hstands]
    exact h.counts e

/-! ### The laws together -/

/-- The laws of the hold pool and of the series table. -/
structure Vault (s : State) : Prop where
  tables : TablesOk s
  lists : PoolLists s.hold s.freeList s.expiry
  cards : ∀ ref, CardKept s.hold ref (s.card ref)
  counts : CountsOk s
  trialBases : ∀ t : TrialId, s.trialBases[t] ≤ Config.trialCeiling
  trialOwners : ∀ i t, (s.hold i).isOpen = true → (s.hold i).card = .trial t → (s.port (s.hold i).owner).mode = .trial
  issues : IssuesOk s
  series : SeriesOk s

theorem vault_iff (s : State) : Vault s ↔ PoolOk s ∧ SeriesOk s := by
  constructor
  · rintro ⟨tables, lists, cards, counts, trialBases, trialOwners, issues, series⟩
    refine ⟨?_, series⟩
    exact {
      tables := tables
      freeOnce := lists.freeOnce
      free := fun i => ⟨fun hi => ⟨lists.below i hi, lists.free i hi⟩, fun ⟨hi, hclosed⟩ => lists.allFree i hi hclosed⟩
      inPool := lists.inPool
      expiryOnce := lists.expiryOnce
      expires := fun i => ⟨lists.expires i, lists.allOpen i⟩
      order := lists.order
      chainOnce := fun ref => (cards ref).chainOnce
      chained := fun ref => (cards ref).chained
      chainLength := fun ref => (cards ref).chainLength
      held := fun ref => (cards ref).held
      covered := fun ref => (cards ref).covered
      bounded := fun ref => (cards ref).bounded
      empty := fun slot => (cards (.real slot)).empty rfl
      trialActive := fun t => (cards (.trial t)).trialActive rfl
      trialBases := trialBases
      governed := counts.governed
      counts := fun e => (counts.counts e).trans (by rw [standing, List.countP_eq_length_filter])
      trialOwners := trialOwners
      issues := issues }
  · rintro ⟨h, series⟩
    exact {
      tables := h.tables
      lists :=
        { freeOnce := h.freeOnce
          free := fun i hi => ((h.free i).mp hi).2
          expiryOnce := h.expiryOnce
          expires := fun i hi => (h.expires i).mp hi
          below := fun i hi => ((h.free i).mp hi).1
          allFree := fun i hi hclosed => (h.free i).mpr ⟨hi, hclosed⟩
          inPool := h.inPool
          allOpen := fun i hi => (h.expires i).mpr hi
          order := h.order }
      cards := fun ref =>
        { chainOnce := h.chainOnce ref
          chained := h.chained ref
          held := h.held ref
          covered := h.covered ref
          blank := fun href hblank => by
            cases ref with
            | real slot => exact (h.empty slot (.inl hblank)).1
            | trial t => cases href
          chainLength := h.chainLength ref
          bounded := h.bounded ref
          empty := fun href hgone => by
            cases ref with
            | real slot => exact h.empty slot hgone
            | trial t => cases href
          trialActive := fun href => by
            cases ref with
            | real slot => cases href
            | trial t => exact h.trialActive t }
      counts := ⟨h.governed, fun e => (h.counts e).trans (by rw [standing, List.countP_eq_length_filter])⟩
      trialBases := h.trialBases
      trialOwners := h.trialOwners
      issues := h.issues
      series := series }

/-- Holds, lists, series and modes as they were, with the cards in order. -/
theorem Vault.of_cards {s w : State} (h : Vault s) (tables : TablesOk w)
    (hpool : (w.holds, w.freeList, w.expiry, w.series) = (s.holds, s.freeList, s.expiry, s.series))
    (hmode : ∀ p, (w.port p).mode = (s.port p).mode) (cards : ∀ ref, CardKept s.hold ref (w.card ref))
    (trialBases : ∀ t : TrialId, w.trialBases[t] ≤ Config.trialCeiling) (issues : IssuesOk w) : Vault w := by
  simp only [Prod.mk.injEq] at hpool
  obtain ⟨hholds, hfree, hexpiry, hseries⟩ := hpool
  have hhold : w.hold = s.hold := State.hold_of_holds hholds
  have hentry : w.seriesFields = s.seriesFields := by
    funext e
    rw [State.seriesFields, State.entry, hseries]
    rfl
  refine ⟨tables, ?_, ?_, ?_, trialBases, ?_, issues, h.series.of_fields hentry⟩
  · rw [hhold, hfree, hexpiry]
    exact h.lists
  · rw [hhold]
    exact cards
  · exact h.counts.of_same (fun i => by rw [hhold]) (fun i => by rw [hhold]) (by rw [hexpiry]) hseries
  · intro i t hi ht
    rw [hhold] at hi ht ⊢
    rw [hmode]
    exact h.trialOwners i t hi ht

/-- All of a state that the laws read, but for the modes of the ports and the sweeps. -/
def State.vault (s : State) :
    (Table Card × Vector Card 4 × Vector Nat 4) × (Table Hold × List Nat × List Nat) × Vector SeriesEntry 16 :=
  ((s.cards, s.trialCards, s.trialBases), (s.holds, s.freeList, s.expiry), s.series)

theorem Vault.of_same {s w : State} (h : Vault s) (hvault : w.vault = s.vault) (hmode : ∀ p, (w.port p).mode = (s.port p).mode)
    (issues : IssuesOk w) : Vault w := by
  simp only [State.vault, Prod.mk.injEq] at hvault
  obtain ⟨⟨hcards, htrials, hbases⟩, ⟨hholds, hfree, hexpiry⟩, hseries⟩ := hvault
  refine h.of_cards ⟨hcards ▸ h.tables.1, hholds ▸ h.tables.2⟩ (by rw [hholds, hfree, hexpiry, hseries]) hmode
    (fun ref => ?_) (fun t => by rw [hbases]; exact h.trialBases t) issues
  have hcard : w.card ref = s.card ref := by
    cases ref with
    | real slot => rw [State.card, State.slotCard, hcards]; rfl
    | trial t => rw [State.card, htrials]; rfl
  rw [hcard]
  exact h.cards ref

theorem plainKept_vault : PlainKept Vault where
  port s p f hf h := h.of_same rfl (fun q => by
    rw [State.port_modifyPort]
    split
    case isTrue heq => exact heq ▸ hf (s.port p)
    case isFalse => rfl) h.issues
  accounts _ _ _ h := h.of_same rfl (fun _ => rfl) h.issues
  inFlight _ _ h := h.of_same rfl (fun _ => rfl) h.issues
  lastGranted _ _ h := h.of_same rfl (fun _ => rfl) h.issues
  clock _ _ h := h.of_same rfl (fun _ => rfl) h.issues
  pending _ _ h := h.of_same rfl (fun _ => rfl) h.issues

theorem Vault.report {s : State} (h : Vault s) (ref : CardRef) (m : Movement) : Vault (s.report ref m) := by
  rw [State.report_accounts]
  exact h.of_same rfl (fun _ => rfl) h.issues

/-! ### One card written -/

theorem Vault.setCard {s : State} (h : Vault s) (ref : CardRef) {c : Card} (kept : CardKept s.hold ref c) :
    Vault (s.setCard ref c) := by
  have written := cardWritten_setCard s ref c
  refine h.of_cards (h.tables.setCard ref c) (by rw [written.rest]) (fun p => by rw [written.rest]; rfl) (fun q => ?_)
    (fun t => by rw [written.rest]; exact h.trialBases t) (h.issues.of_same written.drifts.unit_same)
  by_cases hq : q = ref
  · rw [hq, written.one.written]
    exact kept
  · rw [written.one.others q hq]
    exact h.cards q

theorem Vault.noteActivity {s : State} (h : Vault s) (ref : CardRef) (p : PortId) (till : TillId) (kind : ActivityKind) :
    Vault (s.noteActivity ref p till kind) :=
  h.setCard ref ((h.cards ref).noted rfl rfl rfl rfl)

theorem Vault.countUse {s : State} (h : Vault s) (ref : CardRef) (day : Nat) :
    Vault (s.setCard ref ((s.card ref).countUse day)) := by
  rw [Card.countUse_eq]
  exact h.setCard ref ((h.cards ref).noted rfl rfl rfl rfl)

/-! ### Holds opened, freed and renewed -/

theorem Vault.of_moved {s w : State} (h : Vault s) {i : Nat} {k : Hold} {ref : CardRef} {c : Card} {f : Nat → Nat}
    {free expiry : List Nat} (moved : HoldMoved s w i k ref c f free expiry) (tables : TablesOk w)
    (lists : PoolLists w.hold free expiry) (kept : CardKept w.hold ref c) (counts : CountsOk w)
    (hbefore : (s.hold i).isOpen = true → (s.hold i).card = ref) (hafter : k.isOpen = true → k.card = ref)
    (howner : k.isOpen = true → ∀ t, k.card = .trial t → (s.port k.owner).mode = .trial) : Vault w where
  tables := tables
  lists := by
    rw [moved.free, moved.expiry]
    exact lists
  cards := cardKept_of_hold_written h.cards moved.hold moved.card hbefore hafter kept
  counts := counts
  trialBases t := by
    rw [moved.rest]
    exact h.trialBases t
  trialOwners j t hj ht := by
    have hport : ∀ p, w.port p = s.port p := fun p => by
      rw [moved.rest]
      rfl
    rw [hport]
    by_cases hji : j = i
    · rw [hji, moved.hold.written] at hj ht ⊢
      exact howner hj t ht
    · rw [moved.hold.others j hji] at hj ht ⊢
      exact h.trialOwners j t hj ht
  issues := h.issues.of_same moved.drifts.unit_same
  series := h.series.of_fields (funext moved.count.fields)

theorem Vault.freeHold {s : State} (h : Vault s) {i : Nat} (hopen : (s.hold i).isOpen = true) : Vault (s.freeHold i) := by
  have moved := holdMoved_freeHold s i
  exact h.of_moved moved (h.tables.freeHold i) (h.lists.freed hopen moved.hold rfl)
    ((h.cards _).freed hopen moved.hold rfl)
    (h.counts.freed h.series h.lists hopen moved.hold rfl moved.count moved.expiry) (fun _ => rfl) (fun _ => rfl)
    fun hk => by cases hk

/-- The head of the free list opened against an ACTIVE card that covers it, has a place for it, and is governed. -/
theorem Vault.openHold {s : State} (h : Vault s) {i : Nat} {rest : List Nat} (hfree : s.freeList = i :: rest)
    {ref : CardRef} {amount : Nat} (hroom : (s.card ref).held + amount ≤ (s.card ref).value)
    (hchain : (s.card ref).chain.length < Config.chainLimit) (hactive : (s.card ref).state = .active)
    (hgoverned : ∀ slot, ref = .real slot → (s.governing slot).isSome = true) {p : PortId}
    (hmode : ∀ t, ref = .trial t → (s.port p).mode = .trial) (till : TillId) (lifetime : Nat) (long : Bool) :
    Vault (s.openHold i ref p till amount lifetime long) := by
  have moved := holdMoved_openHold s i ref p till amount lifetime long
  have lists := h.lists
  rw [hfree] at lists
  have hclosed : (s.hold i).isOpen = false := lists.free i List.mem_cons_self
  have hnot : i ∉ s.expiry := fun hmem => by
    have hopen := lists.expires i hmem
    rw [hclosed] at hopen
    cases hopen
  refine h.of_moved moved (h.tables.openHold i ref p till amount lifetime long) ?_
    ((h.cards ref).opened hclosed moved.hold rfl rfl hroom hchain hactive)
    (h.counts.opened h.series hnot moved.hold rfl moved.count ?_ hgoverned) (fun hopen => ?_) (fun _ => rfl)
    fun _ t ht => hmode t ht
  · rw [hfree]
    exact lists.opened moved.hold rfl
  · rw [moved.expiry]
    exact enterExpiry_perm _ i _ _
  · rw [hclosed] at hopen
    cases hopen

theorem Vault.renewHold {s : State} (h : Vault s) {i : Nat} (hopen : (s.hold i).isOpen = true) : Vault (s.renewHold i) := by
  have one := oneHold_renewHold s i
  have hperm : (s.renewHold i).expiry.Perm s.expiry :=
    (enterExpiry_perm _ i _ _).trans (List.perm_cons_erase (h.lists.allOpen i hopen)).symm
  have hcard : ∀ ref, (s.renewHold i).card ref = s.card ref := fun ref => by cases ref <;> rfl
  exact {
    tables := h.tables.setHold i _
    lists := h.lists.renewed hopen one rfl
    cards := fun ref => hcard ref ▸ (h.cards ref).of_same_amounts (one.same_field Hold.isOpen rfl)
      (one.same_field Hold.card rfl) (one.same_field Hold.amount rfl)
    counts := h.counts.of_same (one.same_field Hold.isOpen rfl) (one.same_field Hold.card rfl) hperm rfl
    trialBases := h.trialBases
    trialOwners := fun j t hj ht => by
      have howner := one.same_field Hold.owner rfl j
      rw [one.same_field Hold.isOpen rfl] at hj
      rw [one.same_field Hold.card rfl] at ht
      rw [howner]
      exact h.trialOwners j t hj ht
    issues := h.issues
    series := h.series.of_fields rfl }

end Sys2Proof.Machine
end

section
/-! PROOFS. Every move keeps the laws of the hold pool: each request and each background grant by its own writes. -/

namespace Sys2Proof.Machine

/-! ### What the checks of a request tell -/

/-- The ceiling of every series entry is an amount in range (R2). -/
theorem SeriesOk.ceiling_le {s : State} (h : SeriesOk s) (e : EntryId) : (s.entry e).fields.ceiling ≤ Config.maxAmount := by
  rcases h.ranges e with hcleared | hrange
  · rw [hcleared]
    decide
  · simp only [SeriesFields.inRange, Bool.and_eq_true, decide_eq_true_eq] at hrange
    obtain ⟨⟨⟨⟨-, hceiling⟩, -⟩, -⟩, -⟩ := hrange
    exact hceiling

/-- The card a till reaches: a trial card from a port in TRIAL, or a slot with a governing entry; its ceiling in range. -/
theorem State.target_spec {s : State} (h : SeriesOk s) {p : PortId} {code : CardCode} {t : Target}
    (ht : s.target p code = some t) : (∀ slot, t.ref = .real slot → (s.governing slot).isSome = true) ∧
      (∀ x, t.ref = .trial x → (s.port p).mode = .trial) ∧ t.rules.ceiling ≤ t.ref.highest := by
  unfold State.target at ht
  split at ht
  case h_1 hmode =>
    obtain rfl := Option.some.inj ht
    exact ⟨fun _ href => (by cases href), fun _ _ => hmode, le_refl _⟩
  case h_2 hmode =>
    obtain ⟨⟨slot, e⟩, hresolve, rfl⟩ := Option.map_eq_some_iff.mp ht
    obtain ⟨haccepts, -, hcount, hslot⟩ := (s.resolve_iff code slot e).mp hresolve
    refine ⟨fun _ href => ?_, fun _ href => (by cases href), h.ceiling_le e⟩
    cases href
    refine (s.governing_isSome_iff slot).mpr ⟨e, ?_, ?_⟩
    · exact ((SeriesFields.accepts_iff _ _).mp haccepts).1
    · rw [SeriesFields.covers_iff]
      omega

/-- The target of a sale that passes its checks is the one the code reaches. -/
theorem target_of_saleCheck {s : State} {p : PortId} {code : CardCode} {asked amount : Nat} {flag : Bool} {t : Target}
    (h : saleCheck p code asked flag s = .passed t amount) : s.target p code = some t := by
  unfold saleCheck at h
  split at h
  case isTrue => cases h
  case isFalse =>
    split at h
    case h_1 => cases h
    case h_2 target htarget =>
      dsimp only at h
      split at h
      case h_1 => cases h
      case h_2 =>
        split at h
        case isTrue => cases h
        case isFalse =>
          split at h
          case h_1 => cases h
          case h_2 =>
            cases h
            exact htarget

/-- A card with an open hold is neither BLANK nor RETIRED. -/
theorem CardKept.not_gone {hold : Nat → Hold} {i : Nat} {c : Card} (h : CardKept hold (hold i).card c)
    (hopen : (hold i).isOpen = true) (href : (hold i).card.isTrial = false) : ¬(c.state = .blank ∨ c.state = .retired) := by
  intro hgone
  have hmem : i ∈ c.chain := (h.chained i).mpr ⟨hopen, rfl⟩
  rw [(h.empty href hgone).2] at hmem
  cases hmem

theorem not_gone_of_active {c : CardState} (h : c = .active) : ¬(c = .blank ∨ c = .retired) := by
  subst h
  rintro (h | h) <;> cases h

/-! ### Requests of a till -/

theorem Vault.reserveCard {s : State} (h : Vault s) (p : PortId) (code : CardCode) (till : TillId) (asked : Nat)
    (flag long : Bool) : Vault (reserveCard p code till asked flag long s).state := by
  unfold Machine.reserveCard
  split
  case h_1 => exact h
  case h_2 t amount hcheck =>
    split
    case isTrue => exact h
    case isFalse hchain =>
      split
      case h_1 => exact h
      case h_2 i rest hfree =>
        obtain ⟨hactive, havailable⟩ := active_and_available_of_saleCheck hcheck
        obtain ⟨hgoverned, hmode, -⟩ := State.target_spec h.series (target_of_saleCheck hcheck)
        have hcovered := (h.cards t.ref).covered
        have hroom : (s.card t.ref).held + amount ≤ (s.card t.ref).value := by
          rw [Card.available] at havailable
          omega
        have opened := h.openHold hfree hroom (not_le.mp hchain) hactive hgoverned hmode till (lifetimeOf t.rules long) long
        exact (opened.countUse t.ref s.accounts.day).noteActivity t.ref p till .reserve

theorem Vault.renewTag {s : State} (h : Vault s) (p : PortId) (name : HoldTag) : Vault (renewTag p name s).state := by
  unfold Machine.renewTag
  split
  case h_1 => exact h
  case h_2 => exact h
  case h_3 i hmatch =>
    dsimp only
    split
    case isTrue => exact h
    case isFalse => exact h.renewHold (State.isOpen_of_matchTag hmatch)

theorem Vault.captureHold {s : State} (h : Vault s) {i final : Nat} (hopen : (s.hold i).isOpen = true)
    (hfunds : ¬((s.hold i).amount < final ∧ (s.card (s.hold i).card).available < final - (s.hold i).amount)) (p : PortId)
    (till : TillId) : Vault (s.captureHold i p final till) := by
  have kept := h.cards (s.hold i).card
  have hamount := kept.amount_le_held hopen
  have hcovered := kept.covered
  rw [Card.available] at hfunds
  have freed := h.freeHold hopen
  have hcard := (holdMoved_freeHold s i).card.written
  have hheld := congrArg Card.held hcard
  have hvalue := congrArg Card.value hcard
  have hstate := congrArg Card.state hcard
  dsimp only at hheld hvalue hstate
  have lowered := freed.setCard (s.hold i).card
    (c := { (s.freeHold i).card (s.hold i).card with value := ((s.freeHold i).card (s.hold i).card).value - final })
    ((freed.cards (s.hold i).card).revalued rfl rfl rfl (by dsimp only; omega)
      ((Nat.sub_le _ _).trans (freed.cards (s.hold i).card).bounded)
      fun href hgone => absurd (hstate ▸ hgone) (kept.not_gone hopen href))
  exact (lowered.noteActivity _ p till .capture).report _ _

theorem Vault.captureTag {s : State} (h : Vault s) (p : PortId) (name : HoldTag) (final : Nat) (till : TillId) :
    Vault (captureTag p name final till s).state := by
  unfold Machine.captureTag
  split
  case h_1 => exact h
  case h_2 => exact h
  case h_3 i hmatch =>
    dsimp only
    split
    case isTrue => exact h
    case isFalse hfunds => exact h.captureHold (State.isOpen_of_matchTag hmatch) hfunds p till

theorem Vault.releaseTag {s : State} (h : Vault s) (p : PortId) (name : HoldTag) : Vault (releaseTag p name s).state := by
  unfold Machine.releaseTag
  split
  case h_1 => exact h
  case h_2 => exact h
  case h_3 i hmatch => exact (h.freeHold (State.isOpen_of_matchTag hmatch)).noteActivity _ _ _ _

theorem Vault.redeemCode {s : State} (h : Vault s) (p : PortId) (code : CardCode) (till : TillId) (asked : Nat)
    (flag : Bool) : Vault (redeemCode p code till asked flag s).state := by
  unfold Machine.redeemCode
  split
  case h_1 => exact h
  case h_2 t amount hcheck =>
    obtain ⟨hactive, havailable⟩ := active_and_available_of_saleCheck hcheck
    have kept := h.cards t.ref
    have hcovered := kept.covered
    rw [Card.available] at havailable
    change Vault (s.redeemCard p t.ref till amount)
    rw [State.redeemCard, Card.countUse_eq]
    have lowered := h.setCard t.ref (kept.revalued (d := { s.card t.ref with
        value := (s.card t.ref).value - amount, useDay := s.accounts.day
        uses := if (s.card t.ref).useDay = s.accounts.day then min ((s.card t.ref).uses + 1) 255 else 1 }) rfl rfl rfl
      (by dsimp only; omega) ((Nat.sub_le _ _).trans kept.bounded) fun _ hgone => absurd hgone (not_gone_of_active hactive))
    exact (lowered.noteActivity _ p till .redeem).report _ _

theorem Vault.loadCode {s : State} (h : Vault s) (p : PortId) (code : CardCode) (till : TillId) (asked : Nat) :
    Vault (loadCode p code till asked s).state := by
  unfold Machine.loadCode
  split
  case isTrue => exact h
  case isFalse =>
    split
    case h_1 => exact h
    case h_2 t htarget =>
      dsimp only
      split
      case h_1 => exact h
      case h_2 hrefusal =>
        split
        case isTrue => exact h
        case isFalse hroom =>
          have kept := h.cards t.ref
          have hactive := CardState.refusal_eq_none.mp hrefusal
          obtain ⟨-, -, hceiling⟩ := State.target_spec h.series htarget
          have raised := h.setCard t.ref
            (c := { s.card t.ref with value := (s.card t.ref).value + min asked (t.rules.ceiling - (s.card t.ref).value) })
            (kept.revalued rfl rfl rfl (kept.covered.trans (Nat.le_add_right _ _)) (by dsimp only; omega)
              fun _ hgone => absurd hgone (not_gone_of_active hactive))
          exact (raised.noteActivity _ p till .load).report _ _

/-! ### Requests of the office -/

/-- A slot issued: ACTIVE with a value in range, holding nothing before (R22, R120). -/
theorem Vault.issueSlot {s : State} (h : Vault s) {slot value : Nat} (hblank : (s.slotCard slot).state = .blank)
    (hvalue : value ≤ Config.maxAmount) : Vault (s.issueSlot slot value) := by
  have kept : CardKept s.hold (.real slot) (s.slotCard slot) := h.cards (.real slot)
  have hheld : (s.slotCard slot).held = 0 := kept.held_eq_zero (kept.empty rfl (.inl hblank)).2
  have issued : CardKept s.hold (.real slot) { s.slotCard slot with state := .active, value := value } :=
    { kept with
      toCardSound := kept.toCardSound.of_same_holds rfl rfl (hheld ▸ Nat.zero_le _) fun _ hstate => by cases hstate
      bounded := hvalue
      empty := fun _ hgone => absurd hgone (not_gone_of_active rfl)
      trialActive := fun href => by cases href }
  exact (h.setCard (.real slot) issued).report _ _

theorem Vault.issueCard {s : State} (h : Vault s) (address : Address) (value : Nat) :
    Vault (issueCard address value s).state := by
  unfold Machine.issueCard
  split
  case h_1 => exact h
  case h_2 slot e _ =>
    split
    case isTrue => exact h
    case isFalse hblank =>
      split
      case isTrue => exact h
      case isFalse hceiling => exact h.issueSlot (not_not.mp hblank) ((not_lt.mp hceiling).trans (h.series.ceiling_le e))

theorem Vault.moveState {s : State} (h : Vault s) (address : Address) (before : CardState) {after : CardState}
    (hafter : ¬(after = .blank ∨ after = .retired)) : Vault (moveState address before after s).state := by
  unfold Machine.moveState
  split
  case h_1 => exact h
  case h_2 slot _ _ =>
    split
    case isTrue => exact h
    case isFalse hstate =>
      have kept : CardKept s.hold (.real slot) (s.slotCard slot) := h.cards (.real slot)
      have moved : CardKept s.hold (.real slot) { s.slotCard slot with state := after } :=
        { kept with
          toCardSound := kept.toCardSound.of_same_value rfl rfl rfl fun e => absurd (.inl e) hafter
          empty := fun _ hgone => absurd hgone hafter
          trialActive := fun href => by cases href }
      exact h.setCard (.real slot) moved

theorem Vault.retireCard {s : State} (h : Vault s) (address : Address) : Vault (retireCard address s).state := by
  unfold Machine.retireCard
  split
  case h_1 => exact h
  case h_2 slot _ _ =>
    dsimp only
    split
    case isTrue => exact h
    case isFalse =>
      split
      case isTrue => exact h
      case isFalse hchain =>
        have kept : CardKept s.hold (.real slot) (s.slotCard slot) := h.cards (.real slot)
        have hempty := not_not.mp hchain
        have hheld : (s.slotCard slot).held = 0 := kept.held_eq_zero hempty
        have retired : CardKept s.hold (.real slot) { s.slotCard slot with state := .retired, value := 0 } :=
          { kept with
            toCardSound := kept.toCardSound.of_same_holds rfl rfl hheld.le fun _ _ => rfl
            bounded := Nat.zero_le _
            empty := fun _ _ => ⟨rfl, hempty⟩
            trialActive := fun href => by cases href }
        exact (h.setCard (.real slot) retired).report (.real slot) (.writeOff (s.slotCard slot).value)

theorem CardState.not_gone_of_isIssued {c : CardState} (h : c.isIssued = true) : ¬(c = .blank ∨ c = .retired) := by
  rintro (rfl | rfl) <;> cases h

theorem Vault.editCardFields {s : State} (h : Vault s) (address : Address) (editValue editUses : Bool)
    (newValue newUses : Nat) : Vault (editCardFields address editValue editUses newValue newUses s).state := by
  unfold Machine.editCardFields
  split
  case h_1 => exact h
  case h_2 slot _ _ =>
    dsimp only
    split
    case isTrue => exact h
    case isFalse hissued =>
      have kept : CardKept s.hold (.real slot) (s.slotCard slot) := h.cards (.real slot)
      have hstate := CardState.not_gone_of_isIssued (c := (s.slotCard slot).state) (by simpa using hissued)
      split
      case isTrue => exact h
      case isFalse hfield =>
        cases editValue with
        | false => exact h.setCard (.real slot) (kept.noted rfl rfl rfl rfl)
        | true =>
          have hrange : newValue ≤ Config.maxAmount := not_lt.mp fun habove => hfield ⟨rfl, .inl habove⟩
          have hcovered : (s.slotCard slot).held ≤ newValue := not_lt.mp fun hbelow => hfield ⟨rfl, .inr hbelow⟩
          have edited := h.setCard (.real slot)
            (c := (s.slotCard slot).edited true editUses newValue newUses s.accounts.day)
            (kept.revalued rfl rfl rfl hcovered hrange fun _ hgone => absurd hgone hstate)
          exact edited.report (.real slot) (.adjust (s.slotCard slot).value newValue)

/-! ### The series table -/

theorem SeriesFields.sameStructure_spec {f g : SeriesFields} (h : f.sameStructure g = true) :
    f.enabled = g.enabled ∧ ∀ slot, f.covers slot = g.covers slot := by
  simp only [SeriesFields.sameStructure, Bool.and_eq_true, beq_iff_eq] at h
  obtain ⟨⟨⟨⟨henabled, -⟩, -⟩, hbase⟩, hcount⟩ := h
  exact ⟨henabled, fun slot => by rw [SeriesFields.covers, SeriesFields.covers, hbase, hcount]⟩

/-- An open hold in the range of an enabled entry is counted there. -/
theorem CountsOk.pos_of_covers {s : State} (h : CountsOk s) (lists : PoolLists s.hold s.freeList s.expiry) {i slot : Nat}
    (hopen : (s.hold i).isOpen = true) (hcard : (s.hold i).card = .real slot) {e : EntryId}
    (henabled : (s.entry e).fields.enabled = true) (hcovers : (s.entry e).fields.covers slot = true) :
    0 < (s.entry e).openHolds := by
  rw [h.counts e, if_pos henabled]
  refine List.countP_pos_iff.mpr ⟨i, lists.allOpen i hopen, ?_⟩
  simpa [Hold.standsIn, hcard] using hcovers

/-- The fields of an entry written: with open holds the structure is the same, and the range overlaps no other enabled entry
(R9, R10, R13). -/
theorem CountsOk.written {s : State} (h : CountsOk s) (lists : PoolLists s.hold s.freeList s.expiry) {e : EntryId}
    {f : SeriesFields} (hkept : (s.entry e).openHolds = 0 ∨ f.sameStructure (s.entry e).fields = true)
    (hover : s.overlapsOther e f = false) : CountsOk (s.modifyEntry e fun entry => { entry with fields := f }) := by
  have hentry := fun o => s.entry_modifyEntry e o fun entry => { entry with fields := f }
  have hnone : (s.entry e).openHolds = 0 → ∀ {i slot}, (s.hold i).isOpen = true → (s.hold i).card = .real slot →
      ∃ o, o ≠ e ∧ (s.entry o).fields.enabled = true ∧ (s.entry o).fields.covers slot = true := by
    intro hzero i slot hopen hcard
    obtain ⟨o, henabled, hcovers⟩ := (s.governing_isSome_iff slot).mp (h.governed i slot hopen hcard)
    refine ⟨o, fun hoe => ?_, henabled, hcovers⟩
    have hpos := h.pos_of_covers lists hopen hcard henabled hcovers
    rw [hoe, hzero] at hpos
    exact absurd hpos (lt_irrefl 0)
  refine ⟨fun i slot hopen hcard => ?_, fun o => ?_⟩
  · refine (State.governing_isSome_iff _ slot).mpr ?_
    rcases hkept with hzero | hsame
    · obtain ⟨o, hoe, henabled, hcovers⟩ := hnone hzero hopen hcard
      exact ⟨o, by rw [hentry, if_neg (Ne.symm hoe)]; exact ⟨henabled, hcovers⟩⟩
    · obtain ⟨o, henabled, hcovers⟩ := (s.governing_isSome_iff slot).mp (h.governed i slot hopen hcard)
      refine ⟨o, ?_⟩
      rw [hentry]
      split
      case isFalse => exact ⟨henabled, hcovers⟩
      case isTrue heq =>
        obtain ⟨he, hc⟩ := SeriesFields.sameStructure_spec hsame
        rw [heq] at he hc
        exact ⟨he.trans henabled, (hc slot).trans hcovers⟩
  · rw [hentry]
    split
    case isFalse => exact h.counts o
    case isTrue =>
      change (s.entry e).openHolds = if f.enabled = true then standing s.hold s.expiry f else 0
      rcases hkept with hzero | hsame
      · rw [hzero]
        split
        case isFalse => rfl
        case isTrue hf =>
          refine (List.countP_eq_zero.mpr fun i hi hstands => ?_).symm
          unfold Hold.standsIn at hstands
          split at hstands
          case h_2 => cases hstands
          case h_1 slot hcard =>
            obtain ⟨o, hoe, henabled, hcovers⟩ := hnone hzero (lists.expires i hi) hcard
            exact SeriesFields.not_both_cover (State.overlaps_of_overlapsOther hover hoe hf henabled) slot ⟨hstands, hcovers⟩
      · obtain ⟨he, hc⟩ := SeriesFields.sameStructure_spec hsame
        have hstands : standing s.hold s.expiry f = standing s.hold s.expiry (s.entry e).fields :=
          List.countP_congr fun i _ => by simp only [Hold.standsIn, hc]
        rw [h.counts e, he, hstands]

theorem Vault.writeSeries {s : State} (h : Vault s) {e : EntryId} {f : SeriesFields}
    (hr : (Request.setSeries e f).inRange = true) : Vault (writeSeries e f s).state := by
  simp only [Request.inRange, Bool.and_eq_true, decide_eq_true_eq] at hr
  obtain ⟨⟨⟨-, hlong⟩, huse⟩, -⟩ := hr
  unfold Machine.writeSeries
  split
  case isTrue => exact h
  case isFalse hrange =>
    split
    case isTrue => exact h
    case isFalse hheld =>
      split
      case isTrue => exact h
      case isFalse hover =>
        have hover' : s.overlapsOther e f = false := by simpa using hover
        have hkept : (s.entry e).openHolds = 0 ∨ f.sameStructure (s.entry e).fields = true := by
          by_cases hzero : (s.entry e).openHolds = 0
          · exact .inl hzero
          · exact .inr (by simpa [Nat.pos_of_ne_zero hzero] using hheld)
        exact { h with
          counts := h.counts.written h.lists hkept hover'
          series := h.series.written (by simpa using hrange) hlong huse hover' }

/-! ### Trial cards -/

theorem Vault.setTrial {s : State} (h : Vault s) {write : Bool} {values : Vector Nat 4}
    (hr : (Request.trialSet write values).inRange = true) : Vault (setTrial write values s).state := by
  unfold Machine.setTrial
  split
  case isFalse => exact h
  case isTrue =>
    split
    case isFalse => exact h
    case isTrue hidle =>
      have hvalues : ∀ t : TrialId, values[t] ≤ Config.trialCeiling := fun t => by
        have hall := List.all_eq_true.mp hr values[t] (by simp)
        exact decide_eq_true_iff.mp hall
      refine h.of_cards h.tables rfl (fun _ => rfl) (fun ref => ?_) hvalues h.issues
      cases ref with
      | real slot => exact h.cards (.real slot)
      | trial t =>
        have kept := h.cards (.trial t)
        have hheld := kept.held_eq_zero (State.chain_eq_nil_of_trialIdle hidle t)
        change CardKept s.hold (.trial t) ((s.writeTrial values).card (.trial t))
        rw [State.card_writeTrial]
        exact kept.revalued rfl rfl rfl (hheld ▸ Nat.zero_le _) (hvalues t) fun href _ => by cases href

theorem Vault.freeHolds {l : List Nat} (hnodup : l.Nodup) {s : State} (h : Vault s)
    (hopen : ∀ i ∈ l, (s.hold i).isOpen = true) : Vault (l.foldl State.freeHold s) := by
  induction l generalizing s with
  | nil => exact h
  | cons i rest ih =>
    obtain ⟨hi, hrest⟩ := List.nodup_cons.mp hnodup
    refine ih hrest (h.freeHold (hopen i List.mem_cons_self)) fun j hj => ?_
    rw [(holdMoved_freeHold s i).hold.others j fun e => hi (e ▸ hj)]
    exact hopen j (List.mem_cons_of_mem i hj)

theorem Vault.leaveTrial {s : State} (h : Vault s) (p : PortId) : Vault (s.leaveTrial p) := by
  have hnodup : (s.trialHoldsOf p).Nodup := (sorted_filter h.tables.2 _).imp fun hlt => ne_of_lt hlt
  refine Vault.freeHolds hnodup h fun i hi => ?_
  have hread := (look_iff_mem h.tables.2 i (fun k => k.isOpen && k.card.isTrial && k.owner == p) rfl).mp hi
  simp only [Bool.and_eq_true] at hread
  exact hread.1.1

/-- A port's mode written when the port owns no open TRIAL hold, or to TRIAL. -/
theorem Vault.writeRole {s : State} (h : Vault s) (target : PortId) (role : Role) (mode : Mode)
    (hnone : mode = .normal → ∀ i t, (s.hold i).isOpen = true → (s.hold i).card = .trial t → (s.hold i).owner ≠ target) :
    Vault (s.writeRole target role mode) :=
  { h with
    counts := h.counts.of_same (fun _ => rfl) (fun _ => rfl) (.refl _) rfl
    trialOwners := fun i t hi ht => by
      have hport := s.port_modifyPort target (s.hold i).owner fun port => { port with role := role, mode := mode }
      change ((s.modifyPort target fun port => { port with role := role, mode := mode }).port (s.hold i).owner).mode = .trial
      rw [hport]
      split
      case isTrue heq =>
        cases mode with
        | trial => rfl
        | normal => exact absurd heq.symm (hnone rfl i t hi ht)
      case isFalse => exact h.trialOwners i t hi ht
    series := h.series.of_fields rfl }

theorem Vault.setPortMode {s : State} (h : Vault s) (target : PortId) (role : Role) (mode : Mode) :
    Vault (setPortMode target role mode s).state := by
  unfold Machine.setPortMode
  split
  case isTrue => exact h
  case isFalse =>
    split
    case isTrue => exact h
    case isFalse =>
      have hpool := ((vault_iff s).mp h).1
      have left : Vault (s.left target mode) := by
        unfold State.left
        split
        case isTrue => exact h.leaveTrial target
        case isFalse => exact h
      have freed := freed_left hpool target mode
      have written : Vault ((s.left target mode).writeRole target role mode) := by
        refine left.writeRole target role mode fun hmode i t hi ht howner => ?_
        rw [freed.hold] at hi ht howner
        split at hi
        case isTrue => cases hi
        case isFalse hkept =>
          rw [if_neg hkept] at ht howner
          have hin := hpool.trialOwners i t hi ht
          refine hkept ((State.mem_leaving hpool.tables target mode i).mpr ⟨howner ▸ hin, hmode, hi, ?_, howner⟩)
          rw [ht]
          rfl
      change Vault (s.writePort target role mode)
      cases role with
      | till => exact plainKept_vault.dropCloseOf _ _ _ written
      | office => exact written

/-! ### Sweeps -/

/-- A sweep unit written to one that, if it runs an ISSUE-RUN, issues a value in range. -/
theorem Vault.modifySweep {s : State} (h : Vault s) (u : UnitId) {f : Sweep → Sweep}
    (hf : ∀ start stop stride value, (f (s.sweep u)).running = true →
      (f (s.sweep u)).params = .issueRun start stop stride value → value ≤ Config.maxAmount) : Vault (s.modifySweep u f) := by
  refine h.of_same rfl (fun _ => rfl) fun v start stop stride value hrunning hparams => ?_
  rw [State.sweep_modifySweep] at hrunning hparams
  split at hrunning
  case isTrue heq =>
    rw [if_pos heq] at hparams
    exact hf start stop stride value hrunning hparams
  case isFalse hne =>
    rw [if_neg hne] at hparams
    exact h.issues v start stop stride value hrunning hparams

/-- A write of a unit's cursor and results, or its end. -/
theorem Vault.sweepMoved {s : State} (h : Vault s) (u : UnitId) {f : Sweep → Sweep}
    (hrunning : (f (s.sweep u)).running = true → (s.sweep u).running = true)
    (hparams : (f (s.sweep u)).params = (s.sweep u).params) : Vault (s.modifySweep u f) :=
  h.modifySweep u fun start stop stride value hr hp =>
    h.issues u start stop stride value (hrunning hr) (hparams.symm.trans hp)

theorem Vault.endSweep {s : State} (h : Vault s) (u : UnitId) (reason : SweepReason) (slot : Option Nat) :
    Vault (s.endSweep u reason slot) := by
  have idle : Vault (s.modifySweep u fun x => { x with running := false }) :=
    h.sweepMoved u (fun hr => by cases hr) rfl
  unfold State.endSweep
  refine plainKept_vault.notify _ _ _ ?_
  unfold State.notifyPurged
  split
  case h_1 =>
    split
    case isTrue => exact plainKept_vault.notify _ _ _ idle
    case isFalse => exact idle
  case h_2 => exact idle

theorem Vault.cursorMoved {s : State} (h : Vault s) (u : UnitId) (next : Nat) (atEnd : Prop) [Decidable atEnd] :
    Vault (if atEnd then (s.modifySweep u fun w => { w with cursor := next }).endSweep u .done none
      else s.modifySweep u fun w => { w with cursor := next }) := by
  have moved : Vault (s.modifySweep u fun w => { w with cursor := next }) := h.sweepMoved u id rfl
  split
  case isTrue => exact moved.endSweep _ _ _
  case isFalse => exact moved

theorem Vault.searchStep {s : State} (h : Vault s) (u : UnitId) (stop : Nat) (critA critB : Criterion) (limit : Nat)
    (skip : Bool) : Vault (s.searchStep u stop critA critB limit skip) := by
  unfold State.searchStep
  dsimp only
  split
  case h_1 => exact (h.sweepMoved u id rfl).endSweep u _ _
  case h_2 => exact (h.sweepMoved u id rfl).endSweep u _ _
  all_goals
    split
    case isTrue => exact (h.sweepMoved u id rfl).endSweep u _ _
    case isFalse =>
      split
      case isTrue => exact (h.sweepMoved u id rfl).endSweep u _ _
      case isFalse => exact h.sweepMoved u id rfl

theorem Vault.tallyStep {s : State} (h : Vault s) (u : UnitId) (stop : Nat) : Vault (s.tallyStep u stop) := by
  unfold State.tallyStep
  dsimp only
  split
  case isTrue => exact (h.sweepMoved u id rfl).endSweep u _ _
  case isFalse => exact h.sweepMoved u id rfl

theorem Vault.purgeStep {s : State} (h : Vault s) (u : UnitId) (owner : PortId) (till : Option TillId) :
    Vault (s.purgeStep u owner till) := by
  refine Vault.cursorMoved ?_ u _ _
  split
  case isFalse => exact h
  case isTrue hmatches =>
    have hopen := ((Hold.matchesPurge_iff _ _ _).mp hmatches).1
    exact ((h.freeHold hopen).noteActivity _ _ _ _).sweepMoved u id rfl

theorem Vault.issueRunStep {s : State} (h : Vault s) (u : UnitId) (stop stride : Nat) {value : Nat}
    (hvalue : value ≤ Config.maxAmount) : Vault (s.issueRunStep u stop stride value) := by
  refine Vault.cursorMoved ?_ u _ _
  split
  case isTrue hblank => exact (h.issueSlot hblank hvalue).sweepMoved u id rfl
  case isFalse => exact h.sweepMoved u id rfl

theorem Vault.startSweep {s : State} (h : Vault s) (p : PortId) {params : SweepParams}
    (hparams : ∀ start stop stride value, params = .issueRun start stop stride value → value ≤ Config.maxAmount) :
    Vault (startSweep p params s).state := by
  unfold Machine.startSweep
  split
  case h_1 => exact h
  case h_2 u _ =>
    exact h.modifySweep u (f := fun _ => startedSweep p params) fun start stop stride value _ hp =>
      hparams start stop stride value hp

theorem Vault.startIssueRun {s : State} (h : Vault s) (p : PortId) {start stop stride value : Nat}
    (hr : (Request.issueRun start stop stride value).inRange = true) :
    Vault (startIssueRun p start stop stride value s).state := by
  have hvalue : value ≤ Config.maxAmount := by
    simp only [Request.inRange, Bool.and_eq_true, decide_eq_true_eq] at hr
    exact hr.2
  unfold Machine.startIssueRun
  split
  case isTrue => exact h.startSweep p fun _ _ _ _ hp => by cases hp; exact hvalue
  case isFalse => exact h

theorem Vault.cancelUnit {s : State} (h : Vault s) (u : UnitId) : Vault (cancelUnit u s).state := by
  unfold Machine.cancelUnit
  split
  case isTrue => exact h.endSweep _ _ _
  case isFalse => exact h

/-! ### Every move -/

/-- The work of every request keeps the laws of the pool. -/
theorem Vault.work {s : State} (h : Vault s) {r : Request} (hr : r.inRange = true) (p : PortId) :
    Vault (r.work p s).state := by
  cases r
  case collect | status | portStatus | ident | readSeries | readHold | accounts | resetPort => exact h
  case probe code => exact (probeCard_state p code s).symm ▸ h
  case readCard address => exact (readCardRecord_state address s).symm ▸ h
  case dayReport day => exact (reportDay_state day s).symm ▸ h
  case reserve => exact h.reserveCard _ _ _ _ _ _
  case renew => exact h.renewTag _ _
  case capture => exact h.captureTag _ _ _ _
  case release => exact h.releaseTag _ _
  case redeem => exact h.redeemCode _ _ _ _ _
  case load => exact h.loadCode _ _ _ _
  case setSeries => exact h.writeSeries hr
  case issue => exact h.issueCard _ _
  case block | unblock => exact h.moveState _ _ (by decide)
  case retire => exact h.retireCard _
  case editCard => exact h.editCardFields _ _ _ _ _
  case setTime => exact plainKept_vault.clock _ _ h
  case search | tally | purge => exact h.startSweep p fun _ _ _ _ hp => by cases hp
  case issueRun => exact h.startIssueRun p hr
  case cancelSweep => exact h.cancelUnit _
  case closeDay =>
    change Vault (openClose p s).state
    unfold openClose
    split
    case h_1 => exact h
    case h_2 => exact plainKept_vault.accounts _ _ rfl h
  case confirmClose =>
    change Vault (confirmPending p s).state
    unfold confirmPending
    split
    case h_1 => exact h
    case h_2 =>
      split
      case isTrue => exact plainKept_vault.accounts _ _ rfl h
      case isFalse => exact h
  case trialSet => exact h.setTrial hr
  case setPort => exact h.setPortMode _ _ _
  case setTiming =>
    change Vault (setLineTiming _ _ _ _ _ _ s).state
    unfold setLineTiming
    split
    case isTrue => exact h
    case isFalse => exact plainKept_vault.writeTiming _ _ _ _ _ _ _ h
  case restorePort => exact plainKept_vault.makeActive _ _ _ h

theorem Vault.grantRequest {s : State} (h : Vault s) (hports : PortsOk s) {p : PortId} {q : QueuedRequest}
    (hnext : s.nextRequest = some (p, q)) : Vault (s.grantRequest p q (q.request.work p)) := by
  obtain ⟨-, rest, hrequests⟩ := (s.nextRequest_iff p q).mp hnext
  have hr : q.request.inRange = true := (hports.record p).contents q (hrequests ▸ List.mem_cons_self)
  have started := plainKept_vault.startGrant s p q.request h
  unfold State.grantRequest
  dsimp only
  split
  case isTrue => exact plainKept_vault.finish _ _ (plainKept_vault.inFlight _ _ (started.work hr p))
  case isFalse => exact plainKept_vault.finish _ _ (plainKept_vault.inFlight _ _ started)

/-- Without holds the pool is in order when every record is FREE and every card in its range. -/
theorem vault_of_no_holds {s : State} (tables : TablesOk s) (series : SeriesOk s) (hclosed : ∀ i, (s.hold i).isOpen = false)
    (hexpiry : s.expiry = []) (freeOnce : s.freeList.Nodup) (hfree : ∀ i, i ∈ s.freeList ↔ i < Config.holdRecords)
    (hcounts : ∀ e, (s.entry e).openHolds = 0) (cards : ∀ ref, CardKept s.hold ref (s.card ref))
    (trialBases : ∀ t : TrialId, s.trialBases[t] ≤ Config.trialCeiling) (idle : ∀ u, (s.sweep u).running = false) :
    Vault s := by
  have hnever : ∀ {P : Prop} i, (s.hold i).isOpen = true → P := fun i hi => by
    rw [hclosed] at hi
    cases hi
  exact {
    tables := tables
    lists :=
      { freeOnce := freeOnce
        free := fun i _ => hclosed i
        expiryOnce := hexpiry ▸ List.nodup_nil
        expires := fun i hi => by rw [hexpiry] at hi; cases hi
        below := fun i hi => (hfree i).mp hi
        allFree := fun i hi _ => (hfree i).mpr hi
        inPool := fun i hi => hnever i hi
        allOpen := fun i hi => hnever i hi
        order := by rw [hexpiry]; exact .nil }
    cards := cards
    counts := ⟨fun i _ hi => hnever i hi, fun e => by rw [hcounts, hexpiry]; simp [standing]⟩
    trialBases := trialBases
    trialOwners := fun i _ hi => hnever i hi
    issues := fun u _ _ _ _ hr => by rw [idle] at hr; cases hr
    series := series }

theorem CardKept.of_no_holds {hold : Nat → Hold} {ref : CardRef} {c : Card} (hclosed : ∀ i, (hold i).isOpen = false)
    (hchain : c.chain = []) (hheld : c.held = 0) (hbounded : c.value ≤ ref.highest)
    (hempty : ref.isTrial = false → c.state = .blank ∨ c.state = .retired → c.value = 0)
    (hactive : ref.isTrial = true → c.state = .active) : CardKept hold ref c where
  toCardSound := .of_no_holds hclosed hchain hheld fun href hblank => hempty href (.inl hblank)
  chainLength := hchain ▸ Nat.zero_le _
  bounded := hbounded
  empty href hgone := ⟨hempty href hgone, hchain⟩
  trialActive := hactive

theorem vault_reset : Vault State.reset := by
  refine vault_of_no_holds audited_reset.tables seriesOk_reset (fun _ => rfl) rfl audited_reset.lists.freeOnce (fun i => ?_)
    (fun e => ?_) (fun ref => ?_) (fun t => ?_) fun u => by rw [State.sweep_reset]; rfl
  · rw [State.freeList_reset, List.mem_range]
  · rw [State.entry_reset]
    rfl
  · cases ref with
    | real slot =>
      exact .of_no_holds (fun _ => rfl) rfl rfl (Nat.zero_le _) (fun _ _ => rfl) fun href => by cases href
    | trial t =>
      rw [State.card_reset_trial]
      exact .of_no_holds (fun _ => rfl) rfl rfl (show (10000 : Nat) ≤ 99999 by decide) (fun href _ => by cases href)
        fun _ => rfl
  · simp [State.reset, Config.trialCeiling]

/-- The laws read neither straps nor commands. -/
theorem Vault.setBoard {s : State} (h : Vault s) (rate : LineRate) (queue : List Instr) :
    Vault { s with lineRate := rate, pending := queue } :=
  h.of_same rfl (fun _ => rfl) h.issues

theorem Vault.resetLine {s : State} (h : Vault s) : Vault s.resetLine := by
  have hclosed : ∀ i, (s.resetLine.hold i).isOpen = false := fun i => by
    rw [State.hold_resetLine h.tables, Hold.isOpen_afterReset]
  have hbases : ∀ t : TrialId, s.resetLine.trialBases[t] ≤ Config.trialCeiling := by
    have hsame : s.resetLine.trialBases = s.trialBases := by
      change (s.dropClose none).trialBases = s.trialBases
      rw [dropClose_none]
    rw [hsame]
    exact h.trialBases
  have hopenOnce : s.openIndices.Nodup := (sorted_filter h.tables.2 _).imp fun hlt => ne_of_lt hlt
  refine vault_of_no_holds ⟨Table.wf_mapRecords _ h.tables.1, Table.wf_mapRecords _ h.tables.2⟩ ?_ hclosed rfl ?_ (fun i => ?_)
    (fun e => ?_) (fun ref => ?_) hbases fun u => by rw [State.sweep_resetLine]
  · exact h.series.of_fields s.seriesFields_resetLine
  · refine List.nodup_append'.mpr ⟨h.lists.freeOnce, hopenOnce, fun i hfree hopen => ?_⟩
    rw [State.mem_openIndices h.tables, h.lists.free i hfree] at hopen
    cases hopen
  · change i ∈ s.freeList ++ s.openIndices ↔ _
    rw [List.mem_append, State.mem_openIndices h.tables]
    constructor
    · rintro (hfree | hopen)
      · exact h.lists.below i hfree
      · exact h.lists.inPool i hopen
    · intro hi
      cases hopen : (s.hold i).isOpen with
      | false => exact .inl (h.lists.allFree i hi hopen)
      | true => exact .inr rfl
  · simp [State.entry, State.resetLine, mapVec_getElem]
  · cases ref with
    | real slot =>
      change CardKept _ _ (s.resetLine.slotCard slot)
      rw [State.slotCard_resetLine h.tables]
      exact .of_no_holds hclosed rfl rfl (h.cards (.real slot)).bounded (fun href hgone => ((h.cards (.real slot)).empty href hgone).1)
        fun href => by cases href
    | trial t =>
      rw [State.card_resetLine_trial]
      exact .of_no_holds hclosed rfl rfl (h.trialBases t) (fun href _ => by cases href) (h.cards (.trial t)).trialActive

theorem Vault.moves {s t : State} (h : Vault s) (hports : PortsOk s) (hmove : Moves s t) : Vault t := by
  have I := plainKept_vault
  cases hmove
  case stays => exact h
  case powerOn => exact vault_reset.setBoard _ _
  case resetFalls => exact h.resetLine
  case resetRises rate _ =>
    refine h.of_same rfl (fun p => ?_) h.issues
    rw [State.port_resetRelease]
  case tick => exact I.windowCheck _ (I.clock _ _ h)
  case counted => exact I.clock _ _ h
  case divided => exact I.windowCheck _ (I.clock _ _ (I.clock _ _ h))
  case window => exact I.windowCheck _ h
  case lapse i rest turn head =>
    have granted : Vault (s.grantTo .expiry) := I.lastGranted _ _ h
    exact I.notify _ _ _ ((granted.freeHold (h.lists.expires i (head ▸ List.mem_cons_self))).noteActivity _ _ _ _)
  case searched u start stop critA critB limit skip turn params =>
    exact Vault.searchStep (I.lastGranted _ _ h) u _ _ _ _ _
  case tallied u start stop turn params => exact Vault.tallyStep (I.lastGranted _ _ h) u _
  case purged u owner till turn params => exact Vault.purgeStep (I.lastGranted _ _ h) u _ _
  case issued u start stop stride value turn params =>
    have hrunning : (s.sweep u).running = true := ((s.nextGrant_iff _).mp ((s.nextSweep_iff u).mp turn)).2.1
    exact Vault.issueRunStep (I.lastGranted _ _ h) u _ _ (h.issues u start stop stride value hrunning params)
  case discarded => exact I.inFlight _ _ h
  case completed f flight kept =>
    exact I.port _ _ _ (fun _ => rfl) (I.inFlight _ none h)
  case byte p b => exact I.receiveByte _ _ _ h
  case gap p gap => exact I.gapCheck _ _ (I.port _ _ _ (fun _ => rfl) h)
  case sending p bytes a rest answers => exact I.port _ _ _ (fun _ => rfl) h
  case sent p => exact I.port _ _ _ (fun _ => rfl) h
  case answered p q rest notices a head fewer => exact I.port _ _ _ (fun _ => rfl) h
  case granted p q next => exact h.grantRequest hports next

/-- Settles O57: every move keeps the two lists, the cards, the open-hold counts, the trial cards and the values of the
issue runs. -/
theorem stepKeepsThePool : Obligations.StepKeepsThePool := by
  intro s t hports hseries hpool hstep
  obtain ⟨queue, hmove⟩ := moves_of_step hstep
  have front : Vault { s with pending := queue } := plainKept_vault.pending s queue ((vault_iff s).mpr ⟨hpool, hseries⟩)
  have frontPorts : PortsOk { s with pending := queue } := hports.of_same ((SameQueues.refl s).of_ports rfl rfl)
  exact ((vault_iff t).mp (front.moves frontPorts hmove)).1

end Sys2Proof.Machine
end

section
/-! PROOFS. The state after power-on is sound in every respect. -/

namespace Sys2Proof.Machine

/-- Settles O52: each law at power-on, where no hold is open, no port has an error and no sweep runs. -/
theorem resetStateIsSound : Obligations.ResetStateIsSound := by
  obtain ⟨clock, day⟩ := (calendar_iff _).mp calendar_reset
  obtain ⟨pool, series⟩ := (vault_iff _).mp vault_reset
  have sweeps : SweepsOk State.reset := sweepsOk_of_idle fun u => by
    rw [State.sweep_reset]
    rfl
  exact ⟨pool.tables, portsOk_reset, clock, day, series, pool, audited_reset.balance, sweeps, quietInReset_of_high rfl⟩

end Sys2Proof.Machine
end
